-- ==== Sys2Proof/Word.lean ====
section
/-!
DEFINITION. The words of FXRS and the three small name sets every other file speaks of: the ports and the
command word (10_state.md R25 to R28, 00_scope.md R11), the four working widths (R7), the two signednesses
(R14) and the two operations (30_encoding.md R53).
-/

namespace Sys2Proof

/-- The command word on port `cmd[11:0]` (30_encoding.md R50, 10_state.md R25). -/
abbrev CommandWord := BitVec 12

/-- A 64-bit port: `num`, `mul` or `result` (00_scope.md R11). -/
abbrev Port := BitVec 64

/-- The 8-bit `shift` field of the command word (30_encoding.md R54). -/
abbrev ShiftField := BitVec 8

/-- The working widths (00_scope.md R7). -/
inductive Width where
  | w8
  | w16
  | w32
  | w64
  deriving DecidableEq, Repr

/-- The number N of bits of a working width (00_scope.md R7). -/
def Width.bits : Width → Nat
  | .w8 => 8
  | .w16 => 16
  | .w32 => 32
  | .w64 => 64

/-- How operands and result are read: unsigned, or two's-complement signed (30_encoding.md R52). -/
inductive Signedness where
  | unsigned
  | signed
  deriving DecidableEq, Repr

/-- The two operations: roundedShift and roundedScale (30_encoding.md R53). -/
inductive Op where
  | rshift
  | rscale
  deriving DecidableEq, Repr

end Sys2Proof
end

