-- ==== Sys2Proof/Config.lean ====
section
/-!
DEFINITION. What the elaboration of an instance fixes (00_scope.md R8 to R10, R12), and the one free value the
spec leaves open: the value of `result` where the spec says it is unspecified (70_reset_and_hazards.md R161).
-/

namespace Sys2Proof

/-- Parameter SHIFT_MODE with the parameters that exist only when it is FIXED: FIXED_WIDTH, FIXED_SIGNED and
FIXED_SHIFT (00_scope.md R8, R9). -/
inductive ShiftMode where
  | runtime
  | fixed (width : Width) (sgn : Signedness) (shift : Nat)
  deriving DecidableEq, Repr

/-- Parameter HALF_STRATEGY (00_scope.md R10). -/
inductive HalfStrategy where
  | table
  | computed
  deriving DecidableEq, Repr

/-- The parameter values of one elaborated instance. `latency` and `inputLatched` are the OPEN parameters of
00_scope.md R12: named, and read by no rule about values. -/
structure Params where
  shiftMode : ShiftMode
  halfStrategy : HalfStrategy
  latency : Nat
  inputLatched : Bool
  deriving DecidableEq, Repr

/-- The instance State.reset is of. SHIFT_MODE = RUNTIME is the spec's default (00_scope.md R8); the other three
values are the model's: DESIGN CHOICE, log entry 2. -/
def Params.default : Params :=
  { shiftMode := .runtime, halfStrategy := .table, latency := 0, inputLatched := false }

/-- FREE VALUE. The value on `result` where the spec leaves it unspecified (10_state.md R32,
70_reset_and_hazards.md R161): the k-th draw, under no law. DESIGN CHOICE, log
entry 1: one stream serves every instance and every power-up. -/
opaque Config.unspecifiedResult : Nat → Port

end Sys2Proof
end

