-- ==== Sys2Proof/Syntax.lean ====
section
/-!
DEFINITION. The instructions of FXRS: one constructor per row of spec/opcode_table.json, each with the 8-bit
shift its command word carries (30_encoding.md R54, R56). The operands travel on ports and are no part of an
instruction (30_encoding.md R50).
-/

namespace Sys2Proof

/-- The 16 commands (30_encoding.md R56). -/
inductive Instr where
  /-- RSCALE.U8 (41_rscale.md R100). -/
  | rscaleU8 (shift : ShiftField)
  /-- RSCALE.U16 (41_rscale.md R101). -/
  | rscaleU16 (shift : ShiftField)
  /-- RSCALE.U32 (41_rscale.md R102). -/
  | rscaleU32 (shift : ShiftField)
  /-- RSCALE.U64 (41_rscale.md R103). -/
  | rscaleU64 (shift : ShiftField)
  /-- RSCALE.I8 (41_rscale.md R104). -/
  | rscaleI8 (shift : ShiftField)
  /-- RSCALE.I16 (41_rscale.md R105). -/
  | rscaleI16 (shift : ShiftField)
  /-- RSCALE.I32 (41_rscale.md R106). -/
  | rscaleI32 (shift : ShiftField)
  /-- RSCALE.I64 (41_rscale.md R107). -/
  | rscaleI64 (shift : ShiftField)
  /-- RSHIFT.U8 (42_rshift.md R120). -/
  | rshiftU8 (shift : ShiftField)
  /-- RSHIFT.U16 (42_rshift.md R121). -/
  | rshiftU16 (shift : ShiftField)
  /-- RSHIFT.U32 (42_rshift.md R122). -/
  | rshiftU32 (shift : ShiftField)
  /-- RSHIFT.U64 (42_rshift.md R123). -/
  | rshiftU64 (shift : ShiftField)
  /-- RSHIFT.I8 (42_rshift.md R124). -/
  | rshiftI8 (shift : ShiftField)
  /-- RSHIFT.I16 (42_rshift.md R125). -/
  | rshiftI16 (shift : ShiftField)
  /-- RSHIFT.I32 (42_rshift.md R126). -/
  | rshiftI32 (shift : ShiftField)
  /-- RSHIFT.I64 (42_rshift.md R127). -/
  | rshiftI64 (shift : ShiftField)
  deriving DecidableEq, Repr

/-- The shift the instruction carries. -/
def Instr.shift : Instr → ShiftField
  | .rscaleU8 k | .rscaleU16 k | .rscaleU32 k | .rscaleU64 k
  | .rscaleI8 k | .rscaleI16 k | .rscaleI32 k | .rscaleI64 k
  | .rshiftU8 k | .rshiftU16 k | .rshiftU32 k | .rshiftU64 k
  | .rshiftI8 k | .rshiftI16 k | .rshiftI32 k | .rshiftI64 k => k

/-- The operation the instruction's mnemonic names (30_encoding.md R60). -/
def Instr.op : Instr → Op
  | .rscaleU8 _ | .rscaleU16 _ | .rscaleU32 _ | .rscaleU64 _
  | .rscaleI8 _ | .rscaleI16 _ | .rscaleI32 _ | .rscaleI64 _ => .rscale
  | .rshiftU8 _ | .rshiftU16 _ | .rshiftU32 _ | .rshiftU64 _
  | .rshiftI8 _ | .rshiftI16 _ | .rshiftI32 _ | .rshiftI64 _ => .rshift

/-- The signedness the instruction's type suffix names (30_encoding.md R60). -/
def Instr.sgn : Instr → Signedness
  | .rscaleU8 _ | .rscaleU16 _ | .rscaleU32 _ | .rscaleU64 _
  | .rshiftU8 _ | .rshiftU16 _ | .rshiftU32 _ | .rshiftU64 _ => .unsigned
  | .rscaleI8 _ | .rscaleI16 _ | .rscaleI32 _ | .rscaleI64 _
  | .rshiftI8 _ | .rshiftI16 _ | .rshiftI32 _ | .rshiftI64 _ => .signed

/-- The working width the instruction's type suffix names (30_encoding.md R60). -/
def Instr.width : Instr → Width
  | .rscaleU8 _ | .rscaleI8 _ | .rshiftU8 _ | .rshiftI8 _ => .w8
  | .rscaleU16 _ | .rscaleI16 _ | .rshiftU16 _ | .rshiftI16 _ => .w16
  | .rscaleU32 _ | .rscaleI32 _ | .rshiftU32 _ | .rshiftI32 _ => .w32
  | .rscaleU64 _ | .rscaleI64 _ | .rshiftU64 _ | .rshiftI64 _ => .w64

end Sys2Proof
end

