-- ==== Sys2Proof/Decode.lean ====
section
/-!
DEFINITION. The decoder (30_encoding.md R50 to R54, R57, 40_datapath.md R70; in SHIFT_MODE = FIXED R59 and R86)
and, after it, the encoder written from the opcode map of R56.
-/

namespace Sys2Proof

/-- Field `op = cmd[3]` (30_encoding.md R53). -/
def opField (c : CommandWord) : Op :=
  if c.getLsbD 3 then .rscale else .rshift

/-- Field `sgn = cmd[2]` (30_encoding.md R52). -/
def sgnField (c : CommandWord) : Signedness :=
  if c.getLsbD 2 then .signed else .unsigned

/-- Field `wsel = cmd[1:0]` (30_encoding.md R51). -/
def widthField (c : CommandWord) : Width :=
  match c.getLsbD 1, c.getLsbD 0 with
  | false, false => .w8
  | false, true => .w16
  | true, false => .w32
  | true, true => .w64

/-- Field `shift = cmd[11:4]` (30_encoding.md R54). -/
def shiftField (c : CommandWord) : ShiftField :=
  c.extractLsb' 4 8

/-- The instruction of an operation, a signedness, a width and a shift (30_encoding.md R56). -/
def makeInstr (op : Op) (g : Signedness) (w : Width) (k : ShiftField) : Instr :=
  match op, g, w with
  | .rshift, .unsigned, .w8 => .rshiftU8 k
  | .rshift, .unsigned, .w16 => .rshiftU16 k
  | .rshift, .unsigned, .w32 => .rshiftU32 k
  | .rshift, .unsigned, .w64 => .rshiftU64 k
  | .rshift, .signed, .w8 => .rshiftI8 k
  | .rshift, .signed, .w16 => .rshiftI16 k
  | .rshift, .signed, .w32 => .rshiftI32 k
  | .rshift, .signed, .w64 => .rshiftI64 k
  | .rscale, .unsigned, .w8 => .rscaleU8 k
  | .rscale, .unsigned, .w16 => .rscaleU16 k
  | .rscale, .unsigned, .w32 => .rscaleU32 k
  | .rscale, .unsigned, .w64 => .rscaleU64 k
  | .rscale, .signed, .w8 => .rscaleI8 k
  | .rscale, .signed, .w16 => .rscaleI16 k
  | .rscale, .signed, .w32 => .rscaleI32 k
  | .rscale, .signed, .w64 => .rscaleI64 k

/-- Decoding in SHIFT_MODE = RUNTIME, total on every command word (40_datapath.md R70, 30_encoding.md R57). -/
def decode (c : CommandWord) : Instr :=
  makeInstr (opField c) (sgnField c) (widthField c) (shiftField c)

/-- Decoding by an instance: a FIXED one decodes only `cmd[3]` and uses its own width, signedness and shift in
place of the other fields (30_encoding.md R59, 40_datapath.md R86). DESIGN CHOICE, log entry 9: a shift that no
instance has is cut to 8 bits. -/
def decodeFor (m : ShiftMode) (c : CommandWord) : Instr :=
  match m with
  | .runtime => decode c
  | .fixed w g k => makeInstr (opField c) g w (BitVec.ofNat 8 k)

/-- Why a number is no command word. No command word is ever refused (30_encoding.md R57). -/
inductive DecodeError where
  /-- The number has a bit set above bit 11, the last bit of port `cmd` (30_encoding.md R50). Safe: nothing runs. -/
  | aboveBit11
  deriving DecidableEq, Repr

/-- Decoding a number whose bit 0 is `cmd[0]`: the words of port `cmd` are decoded, a wider number is refused
by name. -/
def decodeNumber (x : Nat) : Except DecodeError Instr :=
  if x < 2 ^ 12 then .ok (decode (BitVec.ofNat 12 x)) else .error .aboveBit11

/-- What the decoder reads from an instruction of `nbits` bits whose bits are `w` (bits above `nbits` are 0). -/
def decodeTableWord (nbits w : Nat) : Option Instr :=
  match decodeNumber (w % 2 ^ nbits) with
  | .ok i => some i
  | .error _ => none

/-- The whole command word, its shift above its 4-bit opcode: `cmd = {bits_8(s), op, sgn, wsel}`
(30_encoding.md R56). -/
def commandWord (k : ShiftField) (opcode : BitVec 4) : CommandWord :=
  k ++ opcode

/-- The command word of an instruction: its shift above the 4-bit opcode of the opcode map (30_encoding.md R56). -/
def encode : Instr → CommandWord
  | .rshiftU8 k => commandWord k 0x0#4
  | .rshiftU16 k => commandWord k 0x1#4
  | .rshiftU32 k => commandWord k 0x2#4
  | .rshiftU64 k => commandWord k 0x3#4
  | .rshiftI8 k => commandWord k 0x4#4
  | .rshiftI16 k => commandWord k 0x5#4
  | .rshiftI32 k => commandWord k 0x6#4
  | .rshiftI64 k => commandWord k 0x7#4
  | .rscaleU8 k => commandWord k 0x8#4
  | .rscaleU16 k => commandWord k 0x9#4
  | .rscaleU32 k => commandWord k 0xA#4
  | .rscaleU64 k => commandWord k 0xB#4
  | .rscaleI8 k => commandWord k 0xC#4
  | .rscaleI16 k => commandWord k 0xD#4
  | .rscaleI32 k => commandWord k 0xE#4
  | .rscaleI64 k => commandWord k 0xF#4

end Sys2Proof
end

