-- ==== Sys2Proof/Machine/Operands.lean ====
section
/-!
DEFINITION. Operand forms: the operands of a command and how they are narrowed (40_datapath.md R71), the range of
the shift operand (R73, R74), and the extension of the result to its port (R85).
-/

namespace Sys2Proof.Machine

/-- `a <- num[N-1:0]` (40_datapath.md R71). -/
def operandA (n : Nat) (num : Port) : BitVec n :=
  num.setWidth n

/-- `b <- if op = 1 then mul[N-1:0] else bits_N(1)` (40_datapath.md R71). -/
def operandB (op : Op) (n : Nat) (mul : Port) : BitVec n :=
  match op with
  | .rscale => mul.setWidth n
  | .rshift => 1#n

/-- `MaxShift(N, sgn)` (40_datapath.md R73, with 90_conflicts.md C1). -/
def maxShift (n : Nat) (g : Signedness) : Nat :=
  match g with
  | .unsigned => n - 1
  | .signed => n - 2

/-- `valid <- (s <= MaxShift(N, sgn))` (40_datapath.md R74). -/
def shiftValid (n : Nat) (g : Signedness) (s : Nat) : Bool :=
  decide (s ≤ maxShift n g)

/-- `result <- if sgn = 1 then sext_64(r) else zext_64(r)` (40_datapath.md R85). -/
def extendResult {n : Nat} (g : Signedness) (r : BitVec n) : Port :=
  match g with
  | .signed => r.signExtend 64
  | .unsigned => r.setWidth 64

end Sys2Proof.Machine
end

