-- ==== Sys2Proof/Machine/HalfBit.lean ====
section
/-!
DEFINITION. The mask-driven half-bit detector: the half-bit provider with both of its strategies and the constant
half-bit table (10_state.md R30, R31; 40_datapath.md R76), the discarded low bits (R78), the comparisons (R79) and
their bit-level form (R80).
-/

namespace Sys2Proof.Machine

/-- The read-only half-bit table of width N: its entries 1 to N - 1 in order, entry s being `bits_N(2^(s-1))`
(10_state.md R30). Entry 0 and the entries above N - 1 are never read and are omitted (R31). DEDUCED, log
entry 8. -/
def halfTable (n : Nat) : List (BitVec n) :=
  (List.range (n - 1)).map fun i => BitVec.ofNat n (2 ^ i)

/-- HALF_STRATEGY = TABLE: `table_N[s]` (40_datapath.md R76). It is read at s from 1 to N - 1 only. -/
def tableHalf (n s : Nat) : BitVec n :=
  (halfTable n).getD (s - 1) 0#n

/-- HALF_STRATEGY = COMPUTED: `bits_N(1) <<_N (s - 1)` (40_datapath.md R76). -/
def computedHalf (n s : Nat) : BitVec n :=
  1#n <<< (s - 1)

/-- The half-bit weight a command uses: the strategy's for a valid s from 1, and bits_N(0) otherwise, where it is
not used (40_datapath.md R76, R90). -/
def halfWeight (h : HalfStrategy) (n : Nat) (g : Signedness) (s : Nat) : BitVec n :=
  if 1 ≤ s ∧ s ≤ maxShift n g then
    match h with
    | .table => tableHalf n s
    | .computed => computedHalf n s
  else 0#n

/-- `low <- p & ((half <<_N 1) -_N bits_N(1))` (40_datapath.md R78). -/
def lowBits {n : Nat} (p half : BitVec n) : BitVec n :=
  p &&& ((half <<< 1) - 1#n)

/-- `ge <- (uint(low) >= uint(half))` (40_datapath.md R79). -/
def detectGe {n : Nat} (low half : BitVec n) : Bool :=
  decide (half.toNat ≤ low.toNat)

/-- `gt <- (uint(low) > uint(half))` (40_datapath.md R79). -/
def detectGt {n : Nat} (low half : BitVec n) : Bool :=
  decide (half.toNat < low.toNat)

/-- Bit-level form of ge: `p[s-1]` (40_datapath.md R80). -/
def bitGe {n : Nat} (p : BitVec n) (s : Nat) : Bool :=
  p.getLsbD (s - 1)

/-- Bit-level form of gt: `p[s-1] and (s >= 2 and p[s-2:0] != 0)` (40_datapath.md R80). -/
def bitGt {n : Nat} (p : BitVec n) (s : Nat) : Bool :=
  p.getLsbD (s - 1) && (decide (2 ≤ s) && decide (p.extractLsb' 0 (s - 1) ≠ 0))

end Sys2Proof.Machine
end

