-- ==== Sys2Proof/Machine/Selector.lean ====
section
/-!
DEFINITION. The fixed-point scalar multiplier (40_datapath.md R72), the shift stage (R77) and the result selector
(R81 to R84), and the block's whole computation from ports to port. Each signal is a function of the signals before
it, evaluated for every command; each choice is a selection (00_scope.md R17).
-/

namespace Sys2Proof.Machine

/-- `p <- a *_N b`, kept at the working width (40_datapath.md R72). -/
def product {n : Nat} (a b : BitVec n) : BitVec n :=
  a * b

/-- `t <- if sgn = 1 then asr_N(p, s) else lsr_N(p, s)` (40_datapath.md R77, with 90_conflicts.md C2). -/
def truncated {n : Nat} (g : Signedness) (p : BitVec n) (s : Nat) : BitVec n :=
  match g with
  | .signed => p.sshiftRight s
  | .unsigned => p >>> s

/-- `neg <- (sgn = 1) and (p[N-1] = 1)` (40_datapath.md R81). -/
def negative {n : Nat} (g : Signedness) (p : BitVec n) : Bool :=
  match g with
  | .signed => p.getLsbD (n - 1)
  | .unsigned => false

/-- `inc <- if neg then gt else ge`: ties round away from zero (40_datapath.md R82). -/
def roundUp (neg ge gt : Bool) : Bool :=
  if neg then gt else ge

/-- `rnd <- t +_N zext_N(inc)` (40_datapath.md R83). -/
def increment {n : Nat} (t : BitVec n) (inc : Bool) : BitVec n :=
  t + (BitVec.ofBool inc).setWidth n

/-- The three-way selection: sentinel, then zero shift, then rounded (40_datapath.md R84, R74, R75). -/
def selectResult {n : Nat} (valid : Bool) (s : Nat) (p rnd : BitVec n) : BitVec n :=
  if valid = false then 0#n else if s = 0 then p else rnd

/-- `rnd` from p and s: the detector, the sign and the increment together (40_datapath.md R76 to R83). -/
def rounded {n : Nat} (h : HalfStrategy) (g : Signedness) (p : BitVec n) (s : Nat) : BitVec n :=
  let half := halfWeight h n g s
  let low := lowBits p half
  increment (truncated g p s) (roundUp (negative g p) (detectGe low half) (detectGt low half))

/-- `r` from p and s (40_datapath.md R73 to R84). -/
def scaled {n : Nat} (h : HalfStrategy) (g : Signedness) (p : BitVec n) (s : Nat) : BitVec n :=
  selectResult (shiftValid n g s) s p (rounded h g p s)

/-- The value a command drives on `result`, from its decoded fields and the two operand ports
(40_datapath.md R71 to R85). -/
def compute (h : HalfStrategy) (op : Op) (g : Signedness) (n s : Nat) (num mul : Port) : Port :=
  extendResult g (scaled h g (product (operandA n num) (operandB op n mul)) s)

end Sys2Proof.Machine
end

