-- ==== Sys2Proof/Machine/State.lean ====
section
/-!
DEFINITION. The state of a model of one FXRS instance: its elaboration parameters, its four ports, and the run
of commands the host gives it (10_state.md R25 to R28, R33; 70_reset_and_hazards.md R167). FXRS has no register,
no memory and no flag (10_state.md R20 to R24, 20_memory.md R40).
-/

namespace Sys2Proof.Machine

/-- One command as the host presents it: the values of the three input ports (10_state.md R33, 00_scope.md R19). -/
structure Command where
  cmd : CommandWord
  num : Port
  mul : Port
  deriving DecidableEq, Repr

structure State where
  /-- The instance's elaboration parameters; no command writes them (10_state.md R22). -/
  inst : Params
  /-- Input port `cmd[11:0]` (10_state.md R25). -/
  cmd : CommandWord
  /-- Input port `num[63:0]` (10_state.md R26). -/
  num : Port
  /-- Input port `mul[63:0]` (10_state.md R27). -/
  mul : Port
  /-- Output port `result[63:0]` (10_state.md R28). -/
  result : Port
  /-- The commands of the run the host has still to present, the next one first (70_reset_and_hazards.md R167). -/
  pending : List Command
  /-- The results observed so far, oldest first (70_reset_and_hazards.md R167). -/
  results : List Port
  /-- The model's own: a command has completed since power-up or reset, so `result` is specified
  (70_reset_and_hazards.md R161). It is no output of the block. Log entry 5. -/
  resultValid : Bool
  /-- The model's own: how many free values of `result` have been drawn. Log entry 1. -/
  draws : Nat
  deriving DecidableEq, Repr

/-- FXRS has no fault: no command traps, faults, stalls or signals an error (60_exceptions.md R140). So nobody
raises one, and the type is empty. -/
inductive Fault where
  deriving DecidableEq, Repr

inductive Refusal where
  /-- Raised by an arm of exec whose instruction has no meaning yet; no arm does. Safe: nothing runs. -/
  | notModelled (mnemonic : String)
  deriving DecidableEq, Repr

/-- An instance right after power-up: nothing presented, nothing observed, `result` unspecified
(70_reset_and_hazards.md R160, R161). The values on the input ports are the host's to drive: DESIGN CHOICE 0,
log entry 3. DESIGN CHOICE, log entry 1: every power-up of every instance begins at draw 0 of one stream, so the
unspecified `result` of two fresh instances is one value, which the spec does not say. -/
def State.powerUp (p : Params) : State :=
  { inst := p, cmd := 0, num := 0, mul := 0, result := Config.unspecifiedResult 0,
    pending := [], results := [], resultValid := false, draws := 1 }

/-- The machine right after reset: the default instance, nothing presented yet (70_reset_and_hazards.md R160). -/
def State.reset : State :=
  State.powerUp Params.default

end Sys2Proof.Machine
end

