-- ==== Sys2Proof/Machine/Ops.lean ====
section
/-!
DEFINITION. The named operations over State: presenting a command, fetching what it decodes to, driving the result,
observing it, waiting without a command, and reset (10_state.md R33; 70_reset_and_hazards.md R160, R161, R167).
FXRS has no memory and no register, and takes no exception (60_exceptions.md R144), so there is no operation for them.
-/

namespace Sys2Proof.Machine

/-- The host puts a command on the input ports; `rest` is still to come (10_state.md R33). -/
def State.present (c : Command) (rest : List Command) (s : State) : State :=
  { s with cmd := c.cmd, num := c.num, mul := c.mul, pending := rest }

/-- The block drives `result`, and has now completed a command (40_datapath.md R89, R90; 70_reset_and_hazards.md
R161). -/
def State.driveResult (r : Port) (s : State) : State :=
  { s with result := r, resultValid := true }

/-- The host observes the completed command's result (70_reset_and_hazards.md R167). -/
def State.observe (s : State) : State :=
  { s with results := s.results ++ [s.result] }

/-- `result` takes an unspecified value: the next free value (70_reset_and_hazards.md R161). Fresh for this instance;
another instance at the same draw takes the same one: DESIGN CHOICE, log entry 1. -/
def State.drawResult (s : State) : State :=
  { s with result := Config.unspecifiedResult s.draws, draws := s.draws + 1 }

/-- Reset, or a power cycle: no state to reset, and `result` is unspecified until the next command completes
(70_reset_and_hazards.md R160, R161; 60_exceptions.md R152). What the host has still to present stays the host's
(log entry 5). DESIGN CHOICE, log entry 3: the input ports hold what they held. -/
def State.assertReset (s : State) : State :=
  { s.drawResult with resultValid := false }

/-- No command is presented: the ports hold, and a `result` that is still unspecified may change
(70_reset_and_hazards.md R161). DESIGN CHOICE, log entry 5. -/
def State.idle (s : State) : State :=
  if s.resultValid then s else s.drawResult

/-- The next command of the run, put on the ports, and the instruction the instance decodes from it
(10_state.md R21, R33; 40_datapath.md R70, R86). -/
def fetch (s : State) : Option (Instr × State) :=
  match s.pending with
  | [] => none
  | c :: rest => some (decodeFor s.inst.shiftMode c.cmd, s.present c rest)

/-- The command word `w` stands where the next command of the run is fetched, with the operands that stand there
already, or those on the ports when no command is pending. -/
def State.placeWord (w : CommandWord) (s : State) : State :=
  match s.pending with
  | [] => { s with pending := [{ cmd := w, num := s.num, mul := s.mul }] }
  | c :: rest => { s with pending := { c with cmd := w } :: rest }

/-- What every command does: it reads the operand ports and drives `result`, and has no other effect
(40_datapath.md R89). -/
def perform (op : Op) (g : Signedness) (w : Width) (k : ShiftField) (s : State) :
    Host.Outcome State Fault Refusal :=
  .next (s.driveResult (compute s.inst.halfStrategy op g w.bits k.toNat s.num s.mul))

/-- The host observes the result of a command that completed. -/
def observed : Host.Outcome State Fault Refusal → Host.Outcome State Fault Refusal
  | .next t => .next t.observe
  | .fault f => .fault f
  | .refused r => .refused r

end Sys2Proof.Machine
end

