-- ==== Sys2Proof/Machine/Rscale.lean ====
section
/-!
DEFINITION. The meanings of the eight RSCALE instructions (41_rscale.md R100 to R107).
-/

namespace Sys2Proof.Machine

/-- RSCALE.U8 (41_rscale.md R100). -/
def execRscaleU8 (k : ShiftField) (s : State) : Host.Outcome State Fault Refusal :=
  perform .rscale .unsigned .w8 k s

/-- RSCALE.U16 (41_rscale.md R101). -/
def execRscaleU16 (k : ShiftField) (s : State) : Host.Outcome State Fault Refusal :=
  perform .rscale .unsigned .w16 k s

/-- RSCALE.U32 (41_rscale.md R102). -/
def execRscaleU32 (k : ShiftField) (s : State) : Host.Outcome State Fault Refusal :=
  perform .rscale .unsigned .w32 k s

/-- RSCALE.U64 (41_rscale.md R103). -/
def execRscaleU64 (k : ShiftField) (s : State) : Host.Outcome State Fault Refusal :=
  perform .rscale .unsigned .w64 k s

/-- RSCALE.I8 (41_rscale.md R104). -/
def execRscaleI8 (k : ShiftField) (s : State) : Host.Outcome State Fault Refusal :=
  perform .rscale .signed .w8 k s

/-- RSCALE.I16 (41_rscale.md R105). -/
def execRscaleI16 (k : ShiftField) (s : State) : Host.Outcome State Fault Refusal :=
  perform .rscale .signed .w16 k s

/-- RSCALE.I32 (41_rscale.md R106). -/
def execRscaleI32 (k : ShiftField) (s : State) : Host.Outcome State Fault Refusal :=
  perform .rscale .signed .w32 k s

/-- RSCALE.I64 (41_rscale.md R107). -/
def execRscaleI64 (k : ShiftField) (s : State) : Host.Outcome State Fault Refusal :=
  perform .rscale .signed .w64 k s

end Sys2Proof.Machine
end

