-- ==== Sys2Proof/Machine/Rshift.lean ====
section
/-!
DEFINITION. The meanings of the eight RSHIFT instructions (42_rshift.md R120 to R127).
-/

namespace Sys2Proof.Machine

/-- RSHIFT.U8 (42_rshift.md R120). -/
def execRshiftU8 (k : ShiftField) (s : State) : Host.Outcome State Fault Refusal :=
  perform .rshift .unsigned .w8 k s

/-- RSHIFT.U16 (42_rshift.md R121). -/
def execRshiftU16 (k : ShiftField) (s : State) : Host.Outcome State Fault Refusal :=
  perform .rshift .unsigned .w16 k s

/-- RSHIFT.U32 (42_rshift.md R122). -/
def execRshiftU32 (k : ShiftField) (s : State) : Host.Outcome State Fault Refusal :=
  perform .rshift .unsigned .w32 k s

/-- RSHIFT.U64 (42_rshift.md R123). -/
def execRshiftU64 (k : ShiftField) (s : State) : Host.Outcome State Fault Refusal :=
  perform .rshift .unsigned .w64 k s

/-- RSHIFT.I8 (42_rshift.md R124). -/
def execRshiftI8 (k : ShiftField) (s : State) : Host.Outcome State Fault Refusal :=
  perform .rshift .signed .w8 k s

/-- RSHIFT.I16 (42_rshift.md R125). -/
def execRshiftI16 (k : ShiftField) (s : State) : Host.Outcome State Fault Refusal :=
  perform .rshift .signed .w16 k s

/-- RSHIFT.I32 (42_rshift.md R126). -/
def execRshiftI32 (k : ShiftField) (s : State) : Host.Outcome State Fault Refusal :=
  perform .rshift .signed .w32 k s

/-- RSHIFT.I64 (42_rshift.md R127). -/
def execRshiftI64 (k : ShiftField) (s : State) : Host.Outcome State Fault Refusal :=
  perform .rshift .signed .w64 k s

end Sys2Proof.Machine
end

