-- ==== Sys2Proof/Machine/Dispatch.lean ====
section
/-!
DEFINITION. Each instruction's meaning, one arm per constructor (30_encoding.md R56).
-/

namespace Sys2Proof.Machine

def exec (i : Instr) (s : State) : Host.Outcome State Fault Refusal :=
  match i with
  | .rscaleU8 k => Sys2Proof.Machine.execRscaleU8 k s
  | .rscaleU16 k => Sys2Proof.Machine.execRscaleU16 k s
  | .rscaleU32 k => Sys2Proof.Machine.execRscaleU32 k s
  | .rscaleU64 k => Sys2Proof.Machine.execRscaleU64 k s
  | .rscaleI8 k => Sys2Proof.Machine.execRscaleI8 k s
  | .rscaleI16 k => Sys2Proof.Machine.execRscaleI16 k s
  | .rscaleI32 k => Sys2Proof.Machine.execRscaleI32 k s
  | .rscaleI64 k => Sys2Proof.Machine.execRscaleI64 k s
  | .rshiftU8 k => Sys2Proof.Machine.execRshiftU8 k s
  | .rshiftU16 k => Sys2Proof.Machine.execRshiftU16 k s
  | .rshiftU32 k => Sys2Proof.Machine.execRshiftU32 k s
  | .rshiftU64 k => Sys2Proof.Machine.execRshiftU64 k s
  | .rshiftI8 k => Sys2Proof.Machine.execRshiftI8 k s
  | .rshiftI16 k => Sys2Proof.Machine.execRshiftI16 k s
  | .rshiftI32 k => Sys2Proof.Machine.execRshiftI32 k s
  | .rshiftI64 k => Sys2Proof.Machine.execRshiftI64 k s

end Sys2Proof.Machine
end

