-- ==== Sys2Proof/Machine/Step.lean ====
section
/-!
DEFINITION. One step of the machine: the next command of the run is presented, decoded and executed, and its result
observed (10_state.md R33, 40_datapath.md R90, 70_reset_and_hazards.md R167). With no command left the block waits.
-/

namespace Sys2Proof.Machine

/-- One step (10_state.md R33). -/
def step (s : State) : Host.Outcome State Fault Refusal :=
  match fetch s with
  | none => .next s.idle
  | some (i, t) => observed (exec i t)

/-- The instruction whose bits are `w` stands where step fetches its next one: the command word of the run's next
command. `nbits` is not needed, since bits above it are 0 and the command word has 12. Log entry 4. -/
def State.withFetchWord (s : State) (nbits w : Nat) : State :=
  s.placeWord (BitVec.ofNat 12 (w % 2 ^ nbits))

end Sys2Proof.Machine
end

