-- ==== Sys2Proof/Machine/Assembler.lean ====
section
/-!
DEFINITION. The assembler syntax (30_encoding.md R60 to R62): from a line of text to the command the host presents,
its command word and the values it drives on the operand ports. Outside the block; nothing of the machine reads it.
-/

namespace Sys2Proof.Machine

/-- An operand literal: decimal, or `0x` hexadecimal as a bit pattern (30_encoding.md R61). -/
inductive Literal where
  | dec (v : Int)
  | hex (v : Nat)
  deriving DecidableEq, Repr

/-- A line, parsed: its mnemonic's operation and type, and its operands in order (30_encoding.md R60, R61). -/
structure AsmLine where
  op : Op
  sgn : Signedness
  width : Width
  operands : List Literal
  deriving DecidableEq, Repr

/-- Why the assembler rejects a line (30_encoding.md R60, R61). -/
inductive AsmError where
  /-- The mnemonic is none of the 16 of 30_encoding.md R60. -/
  | unknownMnemonic
  /-- An operand is no literal of 30_encoding.md R61. -/
  | badLiteral
  /-- The line has too many or too few operands for its mnemonic and the instance's SHIFT_MODE. -/
  | wrongOperandCount
  /-- A decimal literal outside the type's range, or a hexadecimal one of more than N bits. -/
  | literalOutOfRange
  /-- The shift is no decimal integer in [0, 255]. -/
  | badShift
  /-- The type suffix does not name FIXED_WIDTH and FIXED_SIGNED. -/
  | notTheFixedType
  deriving DecidableEq, Repr

/-- The N-bit pattern of a literal, if the assembler takes it: a decimal in [0, 2^N - 1] for `u` and in
[-2^(N-1), 2^(N-1) - 1] for `i`, a hexadecimal of at most N bits (30_encoding.md R61). -/
def literalPattern (g : Signedness) (n : Nat) : Literal → Option (BitVec n)
  | .hex v => if v < 2 ^ n then some (BitVec.ofNat n v) else none
  | .dec v =>
    match g with
    | .unsigned => if 0 ≤ v ∧ v ≤ 2 ^ n - 1 then some (BitVec.ofInt n v) else none
    | .signed => if -2 ^ (n - 1) ≤ v ∧ v ≤ 2 ^ (n - 1) - 1 then some (BitVec.ofInt n v) else none

/-- The value the host drives for a literal: `zext_64` of its pattern for `u`, `sext_64` for `i`
(30_encoding.md R61). -/
def literalPort (g : Signedness) (n : Nat) (l : Literal) : Except AsmError Port :=
  match literalPattern g n l with
  | none => .error .literalOutOfRange
  | some v =>
    match g with
    | .unsigned => .ok (v.setWidth 64)
    | .signed => .ok (v.signExtend 64)

/-- A written shift: a decimal integer in [0, 255] (30_encoding.md R61). -/
def shiftLiteral : Literal → Except AsmError ShiftField
  | .dec v => if 0 ≤ v ∧ v ≤ 255 then .ok (BitVec.ofInt 8 v) else .error .badShift
  | .hex _ => .error .badShift

/-- The operands of a line: `num`, `mul` for RSCALE only, and the shift where SHIFT_MODE = RUNTIME has it written;
for RSHIFT the assembler drives 0 on `mul` (30_encoding.md R61). -/
def lineOperands (m : ShiftMode) (l : AsmLine) : Except AsmError (Port × Port × ShiftField) :=
  match m, l.op, l.operands with
  | .runtime, .rscale, [x, y, z] => do
    let a ← literalPort l.sgn l.width.bits x
    let b ← literalPort l.sgn l.width.bits y
    let k ← shiftLiteral z
    return (a, b, k)
  | .runtime, .rshift, [x, z] => do
    let a ← literalPort l.sgn l.width.bits x
    let k ← shiftLiteral z
    return (a, 0, k)
  | .fixed _ _ k, .rscale, [x, y] => do
    let a ← literalPort l.sgn l.width.bits x
    let b ← literalPort l.sgn l.width.bits y
    return (a, b, BitVec.ofNat 8 k)
  | .fixed _ _ k, .rshift, [x] => do
    let a ← literalPort l.sgn l.width.bits x
    return (a, 0, BitVec.ofNat 8 k)
  | _, _, _ => .error .wrongOperandCount

/-- In SHIFT_MODE = FIXED the type must name FIXED_WIDTH and FIXED_SIGNED (30_encoding.md R61). -/
def typeAllowed (m : ShiftMode) (l : AsmLine) : Bool :=
  match m with
  | .runtime => true
  | .fixed w g _ => decide (l.width = w) && decide (l.sgn = g)

/-- A parsed line to a command (30_encoding.md R61). -/
def assembleLine (m : ShiftMode) (l : AsmLine) : Except AsmError Command :=
  if typeAllowed m l then
    match lineOperands m l with
    | .error e => .error e
    | .ok (a, b, k) => .ok { cmd := encode (makeInstr l.op l.sgn l.width k), num := a, mul := b }
  else .error .notTheFixedType

/-- The 16 mnemonics in lower case (30_encoding.md R60). -/
def mnemonicTable : List (String × Op × Signedness × Width) :=
  [("rscale.u8", .rscale, .unsigned, .w8), ("rscale.u16", .rscale, .unsigned, .w16),
   ("rscale.u32", .rscale, .unsigned, .w32), ("rscale.u64", .rscale, .unsigned, .w64),
   ("rscale.i8", .rscale, .signed, .w8), ("rscale.i16", .rscale, .signed, .w16),
   ("rscale.i32", .rscale, .signed, .w32), ("rscale.i64", .rscale, .signed, .w64)] ++
  [("rshift.u8", .rshift, .unsigned, .w8), ("rshift.u16", .rshift, .unsigned, .w16),
   ("rshift.u32", .rshift, .unsigned, .w32), ("rshift.u64", .rshift, .unsigned, .w64),
   ("rshift.i8", .rshift, .signed, .w8), ("rshift.i16", .rshift, .signed, .w16),
   ("rshift.i32", .rshift, .signed, .w32), ("rshift.i64", .rshift, .signed, .w64)]

/-- The operation and type of a mnemonic, upper or lower case (30_encoding.md R60). -/
def mnemonicOf (cs : List Char) : Option (Op × Signedness × Width) :=
  (mnemonicTable.find? fun row => row.1.toList == cs.map Char.toLower).map (·.2)

/-- The value of a digit in a base of at most 16. -/
def digitValue (base : Nat) (c : Char) : Option Nat :=
  let d :=
    if '0' ≤ c ∧ c ≤ '9' then some (c.toNat - '0'.toNat)
    else if 'a' ≤ c.toLower ∧ c.toLower ≤ 'f' then some (c.toLower.toNat - 'a'.toNat + 10)
    else none
  match d with
  | some v => if v < base then some v else none
  | none => none

/-- Digits after a value already read, most significant first. -/
def digitsFrom (base : Nat) : Nat → List Char → Option Nat
  | acc, [] => some acc
  | acc, c :: cs =>
    match digitValue base c with
    | some v => digitsFrom base (acc * base + v) cs
    | none => none

/-- One digit or more. -/
def digits (base : Nat) : List Char → Option Nat
  | [] => none
  | cs => digitsFrom base 0 cs

/-- A literal's text: decimal with an optional minus sign, or `0x` and hexadecimal digits (30_encoding.md R61). -/
def parseLiteral : List Char → Option Literal
  | '0' :: 'x' :: cs => (digits 16 cs).map .hex
  | '-' :: cs => (digits 10 cs).map fun v => .dec (-(v : Int))
  | cs => (digits 10 cs).map fun v => .dec (v : Int)

/-- Text cut at its commas. -/
def splitCommas : List Char → List (List Char)
  | [] => [[]]
  | c :: cs =>
    match splitCommas cs with
    | [] => [[c]]
    | w :: ws => if c = ',' then [] :: w :: ws else (c :: w) :: ws

/-- Text without its spaces at either end: spacing the spec leaves open, log entry 7. -/
def trimSpaces (cs : List Char) : List Char :=
  ((cs.dropWhile (· == ' ')).reverse.dropWhile (· == ' ')).reverse

/-- All operands of a line, or none where one of them is no literal. -/
def parseOperands : List (List Char) → Option (List Literal)
  | [] => some []
  | w :: ws =>
    match parseLiteral (trimSpaces w), parseOperands ws with
    | some l, some ls => some (l :: ls)
    | _, _ => none

/-- A line's text: the mnemonic, spaces, and operands between commas (30_encoding.md R60, R61). -/
def parseLine (text : List Char) : Except AsmError AsmLine :=
  let cs := trimSpaces text
  match mnemonicOf (cs.takeWhile (· != ' ')) with
  | none => .error .unknownMnemonic
  | some (op, g, w) =>
    match parseOperands (splitCommas (cs.dropWhile (· != ' '))) with
    | none => .error .badLiteral
    | some ls => .ok { op := op, sgn := g, width := w, operands := ls }

/-- The assembler: a line of text for an instance to the command the host presents (30_encoding.md R60, R61). -/
def assemble (m : ShiftMode) (text : String) : Except AsmError Command :=
  match parseLine text.toList with
  | .error e => .error e
  | .ok l => assembleLine m l

end Sys2Proof.Machine
end

