-- ==== Sys2Proof/Machine/System.lean ====
section
/-!
DEFINITION. Any number of instances side by side (10_state.md R34, 60_exceptions.md R150): they share nothing and
have no identifiers, so a system is a list of states and one instance steps at a time. Which one steps is the
host's choice. DEDUCED, log entry 10. Their unspecified results come from one stream: DESIGN CHOICE, log entry 1.
-/

namespace Sys2Proof.Machine

/-- Instance `k` of the system takes one step; the others do nothing. -/
def stepAt (k : Nat) (sys : List State) : Host.Outcome (List State) Fault Refusal :=
  match sys[k]? with
  | none => .next sys
  | some s =>
    match step s with
    | .next t => .next (sys.set k t)
    | .fault f => .fault f
    | .refused r => .refused r

end Sys2Proof.Machine
end

