-- ==== Sys2Proof/Machine/Timed.lean ====
section
/-!
DEFINITION. An instance seen clock by clock, beside the atomic step: the LATENCY window, what an implementation that
does not latch its inputs needs of the host, and the commands a reset loses (00_scope.md R12, 20_memory.md R45,
70_reset_and_hazards.md R161, R165, R166). The machine's step is one command (R166) and reads nothing of this file.
Log entry 6.
-/

namespace Sys2Proof.Machine

/-- One clock cycle as the block sees it: defined values on its input ports (10_state.md R29), or its reset input
asserted (70_reset_and_hazards.md R160). -/
inductive CycleInput where
  | drive (c : Command)
  | reset
  deriving DecidableEq, Repr

/-- A block between two clock edges: what it was given in the LATENCY window, the newest first, and what stands on
`result`. `draws` counts the free values drawn, as in State. -/
structure Timed where
  inst : Params
  window : List Command
  result : Port
  draws : Nat
  deriving DecidableEq, Repr

/-- A block right after power-up: nothing in flight, `result` unspecified (70_reset_and_hazards.md R161). DESIGN
CHOICE, log entry 1: it begins at draw 0 of the stream every instance draws from. -/
def Timed.powerUp (p : Params) : Timed :=
  { inst := p, window := [], result := Config.unspecifiedResult 0, draws := 1 }

/-- The result of one command on an instance (40_datapath.md R90): what the atomic step drives. -/
def commandResult (p : Params) (c : Command) : Port :=
  let i := decodeFor p.shiftMode c.cmd
  compute p.halfStrategy i.op i.sgn i.width.bits i.shift.toNat c.num c.mul

/-- The command whose LATENCY cycles have now passed (00_scope.md R12, 70_reset_and_hazards.md R166), if the block
has had its inputs for that long: an implementation that does not latch them needs them held (R165 c). DESIGN CHOICE,
log entry 6: held in LATENCY + 1 cycles, from the one the command is first driven in to the one its result becomes
valid in, both included. -/
def completing (p : Params) (window : List Command) : Option Command :=
  match window[p.latency]? with
  | none => none
  | some c => if p.inputLatched || window.all (fun d => decide (d = c)) then some c else none

/-- One clock cycle. `result` is the completing command's; with none, it is unspecified (20_memory.md R43,
70_reset_and_hazards.md R161). Reset loses every command in flight (R161). -/
def Timed.cycle (t : Timed) (x : CycleInput) : Timed :=
  match x with
  | .reset => { t with window := [], result := Config.unspecifiedResult t.draws, draws := t.draws + 1 }
  | .drive c =>
    let window := (c :: t.window).take (t.inst.latency + 1)
    match completing t.inst window with
    | some d => { t with window := window, result := commandResult t.inst d }
    | none =>
      { t with window := window, result := Config.unspecifiedResult t.draws, draws := t.draws + 1 }

/-- Clock cycle after clock cycle. -/
def Timed.cycles (t : Timed) : List CycleInput → Timed
  | [] => t
  | x :: xs => (t.cycle x).cycles xs

end Sys2Proof.Machine
end

