-- ==== Sys2Proof/Machine/Elaborate.lean ====
section
/-!
DEFINITION. The elaboration of an instance: the parameter values the host asks for, the check of FIXED_WIDTH and
FIXED_SHIFT (00_scope.md R9, 40_datapath.md R86), the state of the new instance, and its configuration string
(00_scope.md R2).
-/

namespace Sys2Proof.Machine

/-- SHIFT_MODE as asked for, before any check: FIXED_WIDTH and FIXED_SHIFT are any integers (00_scope.md R8, R9). -/
inductive RequestedMode where
  | runtime
  | fixed (width : Int) (sgn : Signedness) (shift : Int)
  deriving DecidableEq, Repr

/-- The parameter values the host elaborates an instance with (10_state.md R33). -/
structure Request where
  mode : RequestedMode
  halfStrategy : HalfStrategy
  latency : Nat
  inputLatched : Bool
  deriving DecidableEq, Repr

/-- Why no instance exists (40_datapath.md R86). -/
inductive ElaborationError where
  /-- FIXED_WIDTH is none of 8, 16, 32, 64. -/
  | badWidth
  /-- FIXED_SHIFT is outside [1, MaxShift(FIXED_WIDTH, FIXED_SIGNED)] (60_exceptions.md R141 for FIXED). -/
  | invalidShift
  deriving DecidableEq, Repr

/-- The working width of a number of bits (00_scope.md R7). -/
def widthOfBits (n : Int) : Option Width :=
  if n = 8 then some .w8
  else if n = 16 then some .w16
  else if n = 32 then some .w32
  else if n = 64 then some .w64
  else none

/-- The check of SHIFT_MODE and its parameters (00_scope.md R9, 40_datapath.md R86). -/
def elaborateMode : RequestedMode → Except ElaborationError ShiftMode
  | .runtime => .ok .runtime
  | .fixed width g shift =>
    match widthOfBits width with
    | none => .error .badWidth
    | some w =>
      if 1 ≤ shift ∧ shift ≤ (maxShift w.bits g : Int) then .ok (.fixed w g shift.toNat)
      else .error .invalidShift

/-- Elaboration: an instance right after power-up, or an error and no instance (40_datapath.md R86). -/
def elaborate (q : Request) : Except ElaborationError State :=
  match elaborateMode q.mode with
  | .error e => .error e
  | .ok m =>
    .ok (State.powerUp
      { shiftMode := m, halfStrategy := q.halfStrategy, latency := q.latency, inputLatched := q.inputLatched })

/-- The parameter values some instance has: those that elaboration accepts (00_scope.md R9). -/
def legalMode : ShiftMode → Bool
  | .runtime => true
  | .fixed w g k => decide (1 ≤ k) && decide (k ≤ maxShift w.bits g)

/-- The configuration string `FXRS-W8.16.32.64-SU-<MODE>-<HALF>` (00_scope.md R2). -/
def configString (p : Params) : String :=
  let mode := match p.shiftMode with
    | .runtime => "RT"
    | .fixed w g k =>
      "FX" ++ toString w.bits ++ (match g with | .unsigned => "U" | .signed => "I") ++ toString k
  let half := match p.halfStrategy with
    | .table => "TAB"
    | .computed => "CMP"
  "FXRS-W8.16.32.64-SU-" ++ mode ++ "-" ++ half

end Sys2Proof.Machine
end

