-- ==== Sys2Proof/Machine/Exact.lean ====
section
/-!
DEFINITION. The spec's notation for exact arithmetic, as functions: the value functions of 00_scope.md R14, the
operators of R15 by their defining equations, and ROUND of R16. The datapath of the model is written with the
bit-vector operations; the reference function of Machine/Reference.lean and the statements use these.
-/

namespace Sys2Proof.Machine

/-- `bits_N(k)`: the N-bit vector whose uint is k mod 2^N (00_scope.md R14). -/
def bitsOf (n : Nat) (k : Int) : BitVec n :=
  BitVec.ofInt n k

/-- `val`: uint for an unsigned reading, sint for a signed one (00_scope.md R14, 40_datapath.md R78). -/
def val {n : Nat} (g : Signedness) (v : BitVec n) : Int :=
  match g with
  | .unsigned => (v.toNat : Int)
  | .signed => v.toInt

/-- `lsr_N(a, k) = bits_N(floor(uint(a) / 2^k))` (00_scope.md R15). -/
def lsr {n : Nat} (a : BitVec n) (k : Nat) : BitVec n :=
  bitsOf n ((a.toNat : Int).fdiv (2 ^ k))

/-- `asr_N(a, k) = bits_N(floor(sint(a) / 2^k))` (00_scope.md R15). -/
def asr {n : Nat} (a : BitVec n) (k : Nat) : BitVec n :=
  bitsOf n (a.toInt.fdiv (2 ^ k))

/-- `ROUND(x)`: to the nearest integer, ties away from zero (00_scope.md R16). -/
def ROUND (x : ℚ) : ℤ :=
  if 0 ≤ x then ⌊x + 1 / 2⌋ else -⌊-x + 1 / 2⌋

end Sys2Proof.Machine
end

