-- ==== Sys2Proof/Machine/Flags.lean ====
section
/-!
DEFINITION. FXRS has no flag and no condition code (10_state.md R23). What the spec has in their place are the
named conditions of 60_exceptions.md R141 to R145: functions of a command, for use in proofs, which no port, flag or
register shows (R143). Nothing of the machine reads them.
-/

namespace Sys2Proof.Machine

/-- The condition names (60_exceptions.md R143). -/
inductive Condition where
  | none
  | invalidShift
  | arithmeticOverflow
  deriving DecidableEq, Repr

/-- The condition ids, the spec's own (60_exceptions.md R143). -/
def conditionId : Condition → Nat
  | .none => 0
  | .invalidShift => 1
  | .arithmeticOverflow => 2

/-- InvalidShift: the shift exceeds MaxShift(N, sgn) (60_exceptions.md R141). -/
def invalidShift (i : Instr) : Bool :=
  decide (maxShift i.width.bits i.sgn < i.shift.toNat)

/-- The exact product of the operands a and b (60_exceptions.md R142). -/
def exactProduct (i : Instr) (num mul : Port) : Int :=
  val i.sgn (operandA i.width.bits num) * val i.sgn (operandB i.op i.width.bits mul)

/-- ArithmeticOverflow: the exact product is outside the range of the working width (60_exceptions.md R142). -/
def arithmeticOverflow (i : Instr) (num mul : Port) : Bool :=
  match i.sgn with
  | .unsigned => decide (exactProduct i num mul > 2 ^ i.width.bits - 1)
  | .signed =>
    decide (exactProduct i num mul < -2 ^ (i.width.bits - 1)) ||
      decide (exactProduct i num mul > 2 ^ (i.width.bits - 1) - 1)

/-- The condition that governs the result: InvalidShift before ArithmeticOverflow (60_exceptions.md R143, R145). -/
def governingCondition (i : Instr) (num mul : Port) : Condition :=
  if invalidShift i then .invalidShift
  else if arithmeticOverflow i num mul then .arithmeticOverflow
  else .none

end Sys2Proof.Machine
end

