-- ==== Sys2Proof/Machine/Reference.lean ====
section
/-!
DEFINITION. The function Exec of 40_datapath.md R90, transcribed line by line from the spec's pseudocode with the
operators of 00_scope.md R14 and R15, beside the model: the machine's step does not call it. The statements say that
step computes it.
-/

namespace Sys2Proof.Machine

/-- The lines of Exec after the decode, for given op, sgn, N and s (40_datapath.md R90). -/
def execAt (op sgn : Bool) (N s : Nat) (num mul : Port) : Port :=
  let a : BitVec N := num.extractLsb' 0 N
  let b : BitVec N := if op then mul.extractLsb' 0 N else bitsOf N 1
  let p : BitVec N := bitsOf N (a.toNat * b.toNat)
  let M : Nat := if sgn then N - 2 else N - 1
  let valid : Bool := decide (s ≤ M)
  let half : BitVec N := if 1 ≤ s ∧ s ≤ M then bitsOf N (2 ^ (s - 1)) else bitsOf N 0
  let low : BitVec N := p &&& bitsOf N (2 ^ s - 1)
  let t : BitVec N := if sgn then asr p s else lsr p s
  let ge : Bool := decide (low.toNat ≥ half.toNat)
  let gt : Bool := decide (low.toNat > half.toNat)
  let neg : Bool := sgn && p.getLsbD (N - 1)
  let inc : Bool := if neg then gt else ge
  let rnd : BitVec N := bitsOf N (t.toNat + (if inc then 1 else 0))
  let r : BitVec N := if valid = false then bitsOf N 0 else if s = 0 then p else rnd
  if sgn then bitsOf 64 r.toInt else bitsOf 64 r.toNat

/-- Exec(cmd, num, mul) of an instance (40_datapath.md R90, with R70 and R86 for the decode). -/
def specExec (m : ShiftMode) (cmd : CommandWord) (num mul : Port) : Port :=
  match m with
  | .runtime =>
    execAt (cmd.getLsbD 3) (cmd.getLsbD 2) (8 <<< (cmd.extractLsb' 0 2).toNat) (cmd.extractLsb' 4 8).toNat num mul
  | .fixed w g k => execAt (cmd.getLsbD 3) (decide (g = .signed)) w.bits k num mul

end Sys2Proof.Machine
end

