-- ==== Sys2Proof/WellFormed.lean ====
section
/-!
DEFINITION. When an instruction belongs to an instance. A RUNTIME instance has all 16 instructions at all 256
shifts (30_encoding.md R54, R57). A FIXED instance has RSHIFT and RSCALE at its own width, signedness and shift
and nothing else (30_encoding.md R59).
-/

namespace Sys2Proof

/-- The instruction is one of the instance's. -/
def WellFormed (m : ShiftMode) (i : Instr) : Bool :=
  match m with
  | .runtime => true
  | .fixed w g k => decide (i.width = w) && decide (i.sgn = g) && decide (i.shift.toNat = k)

end Sys2Proof
end

