-- ==== Sys2Proof/Safety.lean ====
section
/-!
DEFINITION. What counts as a good state and a safe run of an FXRS instance, and the terms the statements use: the
pseudocode of the instruction rules, written with the spec's own operators and not with the model's datapath.
-/

namespace Sys2Proof.Machine

/-- The invariant of an instance: its parameters are ones elaboration accepts (40_datapath.md R86); until a command
has completed, `result` is a free value already drawn (70_reset_and_hazards.md R161, log entry 1); and once one has,
`result` is the function Exec of the inputs presented (10_state.md R32, 40_datapath.md R90) and is the latest result
observed (70_reset_and_hazards.md R167). -/
def State.Inv (s : State) : Prop :=
  legalMode s.inst.shiftMode = true ∧
    (s.resultValid = false → ∃ k, k < s.draws ∧ s.result = Config.unspecifiedResult k) ∧
    (s.resultValid = true →
      s.result = specExec s.inst.shiftMode s.cmd s.num s.mul ∧ s.results.getLast? = some s.result)

/-- The outcome is a next state: nothing traps, faults, stalls or is refused (60_exceptions.md R140). -/
def Completes (o : Host.Outcome State Fault Refusal) : Prop :=
  ∃ t, o = .next t

/-- The value on `result` after a step or a command, if there is a next state. -/
def resultOf (o : Host.Outcome State Fault Refusal) : Option Port :=
  match o with
  | .next t => some t.result
  | .fault _ => none
  | .refused _ => none

/-- A state after a command has driven `r` on `result` and nothing else (40_datapath.md R89). -/
def State.withResult (s : State) (r : Port) : State :=
  { s with result := r, resultValid := true }

/-- The state after the next command `c` has been presented, has driven `r`, and has been observed
(10_state.md R33, 70_reset_and_hazards.md R167). -/
def State.afterCommand (s : State) (c : Command) (rest : List Command) (r : Port) : State :=
  { s with cmd := c.cmd, num := c.num, mul := c.mul, pending := rest, result := r, resultValid := true,
           results := s.results ++ [r] }

/-- The pseudocode of the unsigned instruction rules from p on, MaxShift being M (41_rscale.md R100 to R103,
42_rshift.md R120 to R123). -/
def pseudoUnsigned (n M : Nat) (p : BitVec n) (s : Nat) : BitVec n :=
  if s > M then bitsOf n 0
  else if s = 0 then p
  else bitsOf n ((lsr p s).toNat + (if (p &&& bitsOf n (2 ^ s - 1)).toNat ≥ 2 ^ (s - 1) then 1 else 0))

/-- The pseudocode of the signed instruction rules from p on, MaxShift being M (41_rscale.md R104 to R107,
42_rshift.md R124 to R127). -/
def pseudoSigned (n M : Nat) (p : BitVec n) (s : Nat) : BitVec n :=
  let low := p &&& bitsOf n (2 ^ s - 1)
  let half : BitVec n := bitsOf n (2 ^ (s - 1))
  let ge := decide (low.toNat ≥ half.toNat)
  let gt := decide (low.toNat > half.toNat)
  if s > M then bitsOf n 0
  else if s = 0 then p
  else bitsOf n ((asr p s).toInt + (if (if p.getLsbD (n - 1) then gt else ge) then 1 else 0))

/-- The bit forms the pseudocode's comments give for ge and gt at a valid shift from 1. -/
def BitForms (n M : Nat) (p : BitVec n) (s : Nat) : Prop :=
  1 ≤ s → s ≤ M →
    (decide ((p &&& bitsOf n (2 ^ s - 1)).toNat ≥ 2 ^ (s - 1)) = p.getLsbD (s - 1)) ∧
      (decide ((p &&& bitsOf n (2 ^ s - 1)).toNat > 2 ^ (s - 1)) =
        (p.getLsbD (s - 1) && decide (p.extractLsb' 0 (s - 1) ≠ 0)))

/-- The "Encoding" part of an instruction rule: the opcode in RUNTIME, and in FIXED the one bit decoded. -/
def EncodedAs (make : ShiftField → Instr) (op : Op) (g : Signedness) (w : Width) (opcode : BitVec 4) (M : Nat) :
    Prop :=
  (∀ k : ShiftField, decode (commandWord k opcode) = make k) ∧
    ∀ (k : Nat) (c : CommandWord), 1 ≤ k → k ≤ M → c.getLsbD 3 = decide (op = .rscale) →
      decodeFor (.fixed w g k) c = make (BitVec.ofNat 8 k)

/-- An unsigned RSCALE rule, its operands, encoding, pseudocode and result law (41_rscale.md R100 to R103). -/
def ScaleRuleUnsigned (make : ShiftField → Instr) (w : Width) (opcode : BitVec 4) (M : Nat) : Prop :=
  EncodedAs make .rscale .unsigned w opcode M ∧
    ∀ (k : ShiftField) (s : State),
      let a : BitVec w.bits := s.num.extractLsb' 0 w.bits
      let b : BitVec w.bits := s.mul.extractLsb' 0 w.bits
      let p : BitVec w.bits := bitsOf w.bits (a.toNat * b.toNat)
      let r := pseudoUnsigned w.bits M p k.toNat
      exec (make k) s = .next (s.withResult (bitsOf 64 r.toNat)) ∧ BitForms w.bits M p k.toNat ∧
        (k.toNat ≤ M → (r.toNat : ℤ) = ROUND ((p.toNat : ℚ) / 2 ^ k.toNat)) ∧
        (k.toNat ≤ M → a.toNat * b.toNat < 2 ^ w.bits →
          (r.toNat : ℤ) = ROUND ((a.toNat : ℚ) * (b.toNat : ℚ) / 2 ^ k.toNat))

/-- A signed RSCALE rule (41_rscale.md R104 to R107). -/
def ScaleRuleSigned (make : ShiftField → Instr) (w : Width) (opcode : BitVec 4) (M : Nat) : Prop :=
  EncodedAs make .rscale .signed w opcode M ∧
    ∀ (k : ShiftField) (s : State),
      let a : BitVec w.bits := s.num.extractLsb' 0 w.bits
      let b : BitVec w.bits := s.mul.extractLsb' 0 w.bits
      let p : BitVec w.bits := bitsOf w.bits (a.toInt * b.toInt)
      let r := pseudoSigned w.bits M p k.toNat
      exec (make k) s = .next (s.withResult (bitsOf 64 r.toInt)) ∧
        (k.toNat ≤ M → r.toInt = ROUND ((p.toInt : ℚ) / 2 ^ k.toNat)) ∧
        (k.toNat ≤ M → -2 ^ (w.bits - 1) ≤ a.toInt * b.toInt → a.toInt * b.toInt ≤ 2 ^ (w.bits - 1) - 1 →
          r.toInt = ROUND ((a.toInt : ℚ) * (b.toInt : ℚ) / 2 ^ k.toNat))

/-- An unsigned RSHIFT rule: `mul` is not read (42_rshift.md R120 to R123). -/
def ShiftRuleUnsigned (make : ShiftField → Instr) (w : Width) (opcode : BitVec 4) (M : Nat) : Prop :=
  EncodedAs make .rshift .unsigned w opcode M ∧
    ∀ (k : ShiftField) (s : State),
      let a : BitVec w.bits := s.num.extractLsb' 0 w.bits
      let r := pseudoUnsigned w.bits M a k.toNat
      exec (make k) s = .next (s.withResult (bitsOf 64 r.toNat)) ∧ BitForms w.bits M a k.toNat ∧
        (k.toNat ≤ M → (r.toNat : ℤ) = ROUND ((a.toNat : ℚ) / 2 ^ k.toNat))

/-- A signed RSHIFT rule: `mul` is not read (42_rshift.md R124 to R127). -/
def ShiftRuleSigned (make : ShiftField → Instr) (w : Width) (opcode : BitVec 4) (M : Nat) : Prop :=
  EncodedAs make .rshift .signed w opcode M ∧
    ∀ (k : ShiftField) (s : State),
      let a : BitVec w.bits := s.num.extractLsb' 0 w.bits
      let r := pseudoSigned w.bits M a k.toNat
      exec (make k) s = .next (s.withResult (bitsOf 64 r.toInt)) ∧ BitForms w.bits M a k.toNat ∧
        (k.toNat ≤ M → r.toInt = ROUND ((a.toInt : ℚ) / 2 ^ k.toNat))

/-- The smallest operand of a type (42_rshift.md R131). -/
def minValue (g : Signedness) (n : Nat) : ℤ :=
  match g with
  | .unsigned => 0
  | .signed => -2 ^ (n - 1)

/-- The largest operand of a type (42_rshift.md R131). -/
def maxValue (g : Signedness) (n : Nat) : ℤ :=
  match g with
  | .unsigned => 2 ^ n - 1
  | .signed => 2 ^ (n - 1) - 1

end Sys2Proof.Machine
end

