-- ==== Sys2Proof/Certificates/Slice0/Obligations.lean ====
section
/-!
DEFINITION. The statements about FXRS, from the numbered rules of spec/. FXRS has no memory, no register, no flag and
no exception (10_state.md R20 to R24, 20_memory.md R40, 60_exceptions.md R144), so a frame speaks of the instance, the
ports and the run: all there is.
-/

open Sys2Proof Sys2Proof.Machine

/-! ### Reset and elaboration -/

/-- Reset gives the default instance, RUNTIME by 00_scope.md R8, with nothing presented or observed and a free value
on `result` (70_reset_and_hazards.md R160, R161). That the pending and observed lists are empty, that the flag
resultValid stands for R161's boundary, and how a free value is drawn are the model's: log entries 4, 5 and 1. -/
def Obligations.ResetIsAnUnusedRuntimeInstance : Prop :=
  State.reset.inst.shiftMode = .runtime ∧ State.reset.resultValid = false ∧
    (∃ k, k < State.reset.draws ∧ State.reset.result = Config.unspecifiedResult k) ∧
    State.reset.pending = [] ∧ State.reset.results = []

/-- The invariant holds at reset. -/
def Obligations.ResetMeetsTheInvariant : Prop :=
  State.reset.Inv

/-- The invariant holds at the state of every instance elaboration gives, and no command has completed there, so
`result` is a free value (40_datapath.md R86, 10_state.md R32, 70_reset_and_hazards.md R161; log entries 1 and 5). -/
def Obligations.ElaboratedInstancesMeetTheInvariant : Prop :=
  ∀ (q : Request) (s : State), elaborate q = .ok s → s.Inv ∧ s.resultValid = false

/-- 00_scope.md R9: the FIXED parameters elaboration accepts, exactly. The last clause: they exist only when
SHIFT_MODE = FIXED. -/
def Obligations.ElaborationAcceptsExactlyTheLegalParameters : Prop :=
  (∀ (width : Int) (g : Signedness) (shift : Int) (h : HalfStrategy) (l : Nat) (il : Bool),
      (∃ s, elaborate ⟨.fixed width g shift, h, l, il⟩ = .ok s) ↔
        ∃ w : Width, width = (w.bits : Int) ∧ 1 ≤ shift ∧ shift ≤ (maxShift w.bits g : Int)) ∧
    (∀ (width : Int) (g : Signedness) (shift : Int) (h : HalfStrategy) (l : Nat) (il : Bool) (s : State),
      elaborate ⟨.fixed width g shift, h, l, il⟩ = .ok s →
        ∃ w : Width, width = (w.bits : Int) ∧ s.inst.shiftMode = .fixed w g shift.toNat) ∧
    (∀ (h : HalfStrategy) (l : Nat) (il : Bool),
      ∃ s, elaborate ⟨.runtime, h, l, il⟩ = .ok s ∧ s.inst.shiftMode = .runtime)

/-- 70_reset_and_hazards.md R160 and R161: reset leaves `result` a free value, and after it every command yields Exec,
exactly as before. The fields resultValid and draws, and that the input ports and the two lists stay, are the
model's: log entries 1, 3, 4 and 5. -/
def Obligations.ResetChangesNoRule : Prop :=
  ∀ (s : State) (c : Command) (rest : List Command),
    legalMode s.inst.shiftMode = true → s.pending = c :: rest →
      s.assertReset =
          { s with result := Config.unspecifiedResult s.draws, draws := s.draws + 1, resultValid := false } ∧
        step s = .next (s.afterCommand c rest (specExec s.inst.shiftMode c.cmd c.num c.mul)) ∧
        step s.assertReset =
          .next (s.assertReset.afterCommand c rest (specExec s.inst.shiftMode c.cmd c.num c.mul))

/-- 00_scope.md R2: the configuration string of every instance, by its parts, and the two examples. -/
def Obligations.ConfigurationStrings : Prop :=
  configString ⟨.runtime, .table, 0, false⟩ = "FXRS-W8.16.32.64-SU-RT-TAB" ∧
    configString ⟨.fixed .w16 .signed 5, .computed, 0, false⟩ = "FXRS-W8.16.32.64-SU-FX16I5-CMP" ∧
    ∀ (h : HalfStrategy) (l : Nat) (il : Bool),
      configString ⟨.runtime, h, l, il⟩ =
          "FXRS-W8.16.32.64-SU-RT" ++ (match h with | .table => "-TAB" | .computed => "-CMP") ∧
        ∀ (w : Width) (g : Signedness) (k : Nat),
          configString ⟨.fixed w g k, h, l, il⟩ =
            "FXRS-W8.16.32.64-SU-FX" ++ (match w with | .w8 => "8" | .w16 => "16" | .w32 => "32" | .w64 => "64") ++
              (match g with | .unsigned => "U" | .signed => "I") ++ toString k ++
                (match h with | .table => "-TAB" | .computed => "-CMP")

/-! ### Encoding -/

/-- Words written out from 30_encoding.md R56: its four examples and one word of each family and signedness. -/
def Obligations.SampleWordsDecode : Prop :=
  decode 0x010 = .rshiftU8 1 ∧ decode 0x014 = .rshiftI8 1 ∧ decode 0x05D = .rscaleI16 5 ∧
    decode 0x3FB = .rscaleU64 63 ∧ decode 0x028 = .rscaleU8 2 ∧ decode 0x3EF = .rscaleI64 62 ∧
    decode 0x202 = .rshiftU32 32 ∧ decode 0xFF7 = .rshiftI64 255

/-- 30_encoding.md R56: the opcode map, and the number of every command word. -/
def Obligations.OpcodeMapIsAsTabled : Prop :=
  (∀ k : ShiftField,
    (decode (commandWord k 0x0#4) = .rshiftU8 k ∧ decode (commandWord k 0x1#4) = .rshiftU16 k ∧
      decode (commandWord k 0x2#4) = .rshiftU32 k ∧ decode (commandWord k 0x3#4) = .rshiftU64 k) ∧
    (decode (commandWord k 0x4#4) = .rshiftI8 k ∧ decode (commandWord k 0x5#4) = .rshiftI16 k ∧
      decode (commandWord k 0x6#4) = .rshiftI32 k ∧ decode (commandWord k 0x7#4) = .rshiftI64 k) ∧
    (decode (commandWord k 0x8#4) = .rscaleU8 k ∧ decode (commandWord k 0x9#4) = .rscaleU16 k ∧
      decode (commandWord k 0xA#4) = .rscaleU32 k ∧ decode (commandWord k 0xB#4) = .rscaleU64 k) ∧
    (decode (commandWord k 0xC#4) = .rscaleI8 k ∧ decode (commandWord k 0xD#4) = .rscaleI16 k ∧
      decode (commandWord k 0xE#4) = .rscaleI32 k ∧ decode (commandWord k 0xF#4) = .rscaleI64 k)) ∧
  (∀ i : Instr,
    (encode i).toNat =
      16 * i.shift.toNat + 8 * (match i.op with | .rshift => 0 | .rscale => 1) +
        4 * (match i.sgn with | .unsigned => 0 | .signed => 1) +
        (match i.width with | .w8 => 0 | .w16 => 1 | .w32 => 2 | .w64 => 3)) ∧
  (encode (.rshiftU8 1) = 0x010 ∧ encode (.rshiftI8 1) = 0x014 ∧ encode (.rscaleI16 5) = 0x05D ∧
    encode (.rscaleU64 63) = 0x3FB)

/-- The fields of the command word (30_encoding.md R51, R53; 40_datapath.md R70). -/
def Obligations.FieldsSelectTheInstruction : Prop :=
  ∀ c : CommandWord,
    (decode c).width.bits = 8 <<< (c.extractLsb' 0 2).toNat ∧
      ((decode c).sgn = .signed ↔ c.getLsbD 2 = true) ∧
      ((decode c).op = .rscale ↔ c.getLsbD 3 = true) ∧
      (decode c).shift.toNat = (c.extractLsb' 4 8).toNat

/-- Decode and encode agree on every instruction of every instance, RUNTIME or FIXED; and what an instance decodes
is one of its instructions (30_encoding.md R56, R57, R59). -/
def Obligations.DecodeOfEncodeIsTheInstruction : Prop :=
  ∀ m : ShiftMode, legalMode m = true →
    (∀ i : Instr, WellFormed m i = true → decodeFor m (encode i) = i) ∧
      ∀ c : CommandWord, WellFormed m (decodeFor m c) = true

/-- Every command word is the word of the one instruction it decodes to (30_encoding.md R57). -/
def Obligations.EveryWordIsAnInstruction : Prop :=
  ∀ c : CommandWord, encode (decode c) = c ∧ decodeTableWord 12 c.toNat = some (decode c) ∧
    decodeTableWord 16 c.toNat = some (decode c)

/-- 30_encoding.md R59: a FIXED instance decodes only `cmd[3]`, performs two operations, and reads a word written
with its own values as a RUNTIME instance does; and such a word is what its instructions are encoded as. -/
def Obligations.FixedInstanceDecodesOnlyTheOperation : Prop :=
  ∀ (w : Width) (g : Signedness) (k : Nat), legalMode (.fixed w g k) = true →
    (∀ c : CommandWord,
      decodeFor (.fixed w g k) c =
        makeInstr (if c.getLsbD 3 then .rscale else .rshift) g w (BitVec.ofNat 8 k)) ∧
    (∀ c d : CommandWord, c.getLsbD 3 = d.getLsbD 3 →
      decodeFor (.fixed w g k) c = decodeFor (.fixed w g k) d) ∧
    (∀ c : CommandWord, c.getLsbD 2 = decide (g = .signed) → 8 <<< (c.extractLsb' 0 2).toNat = w.bits →
      (c.extractLsb' 4 8).toNat = k → decodeFor (.fixed w g k) c = decodeFor .runtime c) ∧
    (∀ i : Instr, WellFormed (.fixed w g k) i = true →
      (encode i).getLsbD 2 = decide (g = .signed) ∧ 8 <<< ((encode i).extractLsb' 0 2).toNat = w.bits ∧
        ((encode i).extractLsb' 4 8).toNat = k)

/-! ### The step -/

/-- A step presents the run's next command, runs the instruction the instance decodes from it, and observes its
result (10_state.md R33, 70_reset_and_hazards.md R167). -/
def Obligations.StepRunsTheDecodedInstruction : Prop :=
  ∀ (s : State) (c : Command) (rest : List Command), s.pending = c :: rest →
    step s = observed (exec (decodeFor s.inst.shiftMode c.cmd) (s.present c rest))

/-- With no command left, a step holds everything once a command has completed; before that only `result` changes,
to a value nothing is known of. The model's choice: log entry 5. -/
def Obligations.StepWithoutCommandWaits : Prop :=
  ∀ s : State, s.pending = [] →
    (s.resultValid = true → step s = .next s) ∧
      (s.resultValid = false →
        step s = .next { s with result := Config.unspecifiedResult s.draws, draws := s.draws + 1 })

/-- No command ends in anything but a next state (60_exceptions.md R140), and no step does. That a step with no
command pending is one is the model's choice: log entry 5. -/
def Obligations.NothingTrapsOrStalls : Prop :=
  (∀ (i : Instr) (s : State), Completes (exec i s)) ∧ ∀ s : State, Completes (step s)

/-- 40_datapath.md R90: the block's single step is Exec, for every instance and every command. -/
def Obligations.StepComputesExec : Prop :=
  ∀ (s : State) (c : Command) (rest : List Command),
    legalMode s.inst.shiftMode = true → s.pending = c :: rest →
      step s = .next (s.afterCommand c rest (specExec s.inst.shiftMode c.cmd c.num c.mul))

/-- 70_reset_and_hazards.md R167: a run of commands on one instance, and its observation. -/
def Obligations.RunObservesTheListOfResults : Prop :=
  ∀ (s : State) (cs : List Command), legalMode s.inst.shiftMode = true → s.pending = cs →
    ∃ t : State, Host.Core.run core cs.length s = .next t ∧ t.pending = [] ∧ t.inst = s.inst ∧
      t.results = s.results ++ cs.map fun c => specExec s.inst.shiftMode c.cmd c.num c.mul

/-- Every step keeps the invariant. -/
def Obligations.StepKeepsTheInvariant : Prop :=
  ∀ s t : State, s.Inv → step s = .next t → t.Inv

/-- No step writes an elaboration parameter (10_state.md R22), and no step takes back what was observed. -/
def Obligations.StepKeepsParametersAndObservations : Prop :=
  ∀ s t : State, step s = .next t → t.inst = s.inst ∧ s.results <+: t.results ∧ t.pending = s.pending.tail

/-- 40_datapath.md R89: a command reads only its inputs, writes only `result`, and has no other effect. `resultValid`
is the model's record that the command has completed (log entry 5). -/
def Obligations.CommandReadsInputsAndWritesResultOnly : Prop :=
  ∀ (i : Instr) (s : State), ∃ r : Port, exec i s = .next (s.withResult r) ∧
    ∀ u : State, u.num = s.num → u.mul = s.mul → exec i u = .next (u.withResult r)

/-- A command's result does not depend on any earlier command, on what comes later, or on another instance: two
instances of one SHIFT_MODE give one command one result (20_memory.md R45, 70_reset_and_hazards.md R164). -/
def Obligations.ResultIsIndependentOfHistory : Prop :=
  ∀ (s u : State) (c : Command) (rest rest' : List Command),
    s.inst.shiftMode = u.inst.shiftMode → s.pending = c :: rest → u.pending = c :: rest' →
      ∃ r : Port, step s = .next (s.afterCommand c rest r) ∧ step u = .next (u.afterCommand c rest' r)

/-- Presenting the same command twice yields the same result twice (20_memory.md R43). -/
def Obligations.CommandsAreIdempotent : Prop :=
  ∀ (s : State) (c : Command) (rest : List Command), s.pending = c :: c :: rest →
    ∃ (r : Port) (t : State), Host.Core.run core 2 s = .next t ∧ t.results = s.results ++ [r, r] ∧ t.result = r

/-- 00_scope.md R10: HALF_STRATEGY selects how the half-bit weight is produced, no command changes it, and no output
of the block depends on it. -/
def Obligations.NoOutputDependsOnTheHalfStrategy : Prop :=
  (∀ (n : Nat) (g : Signedness) (s : Nat), 1 ≤ s → s ≤ maxShift n g →
    halfWeight .table n g s = tableHalf n s ∧ halfWeight .computed n g s = computedHalf n s) ∧
  ∀ (s : State) (h : HalfStrategy) (c : Command) (rest : List Command), s.pending = c :: rest →
    ∃ r : Port, step s = .next (s.afterCommand c rest r) ∧
      step { s with inst := { s.inst with halfStrategy := h } } =
        .next ((State.afterCommand { s with inst := { s.inst with halfStrategy := h } } c rest) r)

/-- Neither LATENCY nor INPUT_LATCHED changes a result (00_scope.md R12, 70_reset_and_hazards.md R166). -/
def Obligations.NoResultDependsOnTheTimingParameters : Prop :=
  ∀ (s : State) (l : Nat) (il : Bool) (i : Instr),
    resultOf (exec i { s with inst := { s.inst with latency := l, inputLatched := il } }) = resultOf (exec i s)

/-- Instances share no state (10_state.md R34). A step of one leaves every other as it was, gives what it would give
alone, and steps of two may be taken in either order. That instances driven concurrently take their steps one at a
time is the model's: log entry 10. -/
def Obligations.InstancesShareNothing : Prop :=
  (∀ (k : Nat) (sys sys' : List State), stepAt k sys = .next sys' →
    sys'.length = sys.length ∧ (∀ j, j ≠ k → sys'[j]? = sys[j]?) ∧
      ∀ s, sys[k]? = some s → ∃ t, step s = .next t ∧ sys'[k]? = some t) ∧
  (∀ (j k : Nat) (sys : List State), j ≠ k → ∃ sys₁ sys₂ sys₃ : List State,
    stepAt j sys = .next sys₁ ∧ stepAt k sys₁ = .next sys₃ ∧ stepAt k sys = .next sys₂ ∧
      stepAt j sys₂ = .next sys₃)

/-! ### The instruction rules -/

/-- The unsigned RSCALE rules (41_rscale.md R100 to R103). -/
def Obligations.UnsignedScaleInstructions : Prop :=
  ScaleRuleUnsigned .rscaleU8 .w8 0x8#4 7 ∧ ScaleRuleUnsigned .rscaleU16 .w16 0x9#4 15 ∧
    ScaleRuleUnsigned .rscaleU32 .w32 0xA#4 31 ∧ ScaleRuleUnsigned .rscaleU64 .w64 0xB#4 63

/-- The signed RSCALE rules (41_rscale.md R104 to R107). -/
def Obligations.SignedScaleInstructions : Prop :=
  ScaleRuleSigned .rscaleI8 .w8 0xC#4 6 ∧ ScaleRuleSigned .rscaleI16 .w16 0xD#4 14 ∧
    ScaleRuleSigned .rscaleI32 .w32 0xE#4 30 ∧ ScaleRuleSigned .rscaleI64 .w64 0xF#4 62

/-- The unsigned RSHIFT rules (42_rshift.md R120 to R123). -/
def Obligations.UnsignedShiftInstructions : Prop :=
  ShiftRuleUnsigned .rshiftU8 .w8 0x0#4 7 ∧ ShiftRuleUnsigned .rshiftU16 .w16 0x1#4 15 ∧
    ShiftRuleUnsigned .rshiftU32 .w32 0x2#4 31 ∧ ShiftRuleUnsigned .rshiftU64 .w64 0x3#4 63

/-- The signed RSHIFT rules (42_rshift.md R124 to R127). -/
def Obligations.SignedShiftInstructions : Prop :=
  ShiftRuleSigned .rshiftI8 .w8 0x4#4 6 ∧ ShiftRuleSigned .rshiftI16 .w16 0x5#4 14 ∧
    ShiftRuleSigned .rshiftI32 .w32 0x6#4 30 ∧ ShiftRuleSigned .rshiftI64 .w64 0x7#4 62

/-! ### The datapath -/

/-- 40_datapath.md R71: which bits a and b are; bits num[63:N] and mul[63:N] are ignored, and RSHIFT ignores all of
mul. -/
def Obligations.IgnoredOperandBits : Prop :=
  (∀ (w : Width) (num mul : Port),
    operandA w.bits num = num.extractLsb' 0 w.bits ∧ operandB .rscale w.bits mul = mul.extractLsb' 0 w.bits ∧
      operandB .rshift w.bits mul = bitsOf w.bits 1) ∧
  ∀ (i : Instr) (s : State) (num mul : Port),
    num.extractLsb' 0 i.width.bits = s.num.extractLsb' 0 i.width.bits →
      (i.op = .rscale → mul.extractLsb' 0 i.width.bits = s.mul.extractLsb' 0 i.width.bits) →
        ∃ r : Port, exec i s = .next (s.withResult r) ∧
          exec i { s with num := num, mul := mul } = .next (State.withResult { s with num := num, mul := mul } r)

/-- 40_datapath.md R72: the product wraps at the working width, one bit pattern for both signednesses; for RSHIFT it
is the operand. -/
def Obligations.ProductWrapsAtTheWorkingWidth : Prop :=
  ∀ (w : Width) (a b : BitVec w.bits) (num mul : Port),
    product a b = bitsOf w.bits (a.toNat * b.toNat) ∧ product a b = bitsOf w.bits (a.toInt * b.toInt) ∧
      product (operandA w.bits num) (operandB .rshift w.bits mul) = operandA w.bits num

/-- 40_datapath.md R73: MaxShift, by its formula and by its table. -/
def Obligations.MaxShiftIsAsTabled : Prop :=
  (∀ w : Width, maxShift w.bits .unsigned = w.bits - 1 ∧ maxShift w.bits .signed = w.bits - 2) ∧
    (maxShift 8 .unsigned = 7 ∧ maxShift 16 .unsigned = 15 ∧ maxShift 32 .unsigned = 31 ∧
      maxShift 64 .unsigned = 63) ∧
    (maxShift 8 .signed = 6 ∧ maxShift 16 .signed = 14 ∧ maxShift 32 .signed = 30 ∧ maxShift 64 .signed = 62)

/-- 40_datapath.md R74: an out-of-range shift gives the sentinel 0 in all 64 bits whatever the operands hold, and
nothing reports it. -/
def Obligations.OutOfRangeShiftGivesTheSentinel : Prop :=
  ∀ (i : Instr) (s : State), maxShift i.width.bits i.sgn < i.shift.toNat →
    exec i s = .next (s.withResult 0)

/-- 40_datapath.md R75: a zero shift gives the product unchanged, for RSHIFT the operand. -/
def Obligations.ZeroShiftGivesTheProduct : Prop :=
  ∀ (i : Instr) (s : State), i.shift = 0 →
    (exec i s = .next (s.withResult (extendResult i.sgn
      (product (operandA i.width.bits s.num) (operandB i.op i.width.bits s.mul))))) ∧
    (i.op = .rshift → exec i s = .next (s.withResult (extendResult i.sgn (operandA i.width.bits s.num))))

/-- The half-bit tables (10_state.md R30): their lengths, every entry, and the entries of width 8 as listed. -/
def Obligations.HalfBitTableContents : Prop :=
  (∀ w : Width, (halfTable w.bits).length = w.bits - 1 ∧
    ∀ s, 1 ≤ s → s ≤ w.bits - 1 →
      tableHalf w.bits s = bitsOf w.bits (2 ^ (s - 1)) ∧
        ∀ j, (tableHalf w.bits s).getLsbD j = decide (j = s - 1)) ∧
  halfTable 8 = [0x01, 0x02, 0x04, 0x08, 0x10, 0x20, 0x40]

/-- 40_datapath.md R76: both strategies give bits_N(2^(s-1)) for every valid shift from 1, a positive value under
both readings; where half is not used the model gives it 0, as the pseudocode of R90 does. -/
def Obligations.BothHalfStrategiesGiveTheHalfBit : Prop :=
  ∀ (w : Width) (g : Signedness) (s : Nat),
    (1 ≤ s → s ≤ maxShift w.bits g →
      tableHalf w.bits s = bitsOf w.bits (2 ^ (s - 1)) ∧ computedHalf w.bits s = bitsOf w.bits (2 ^ (s - 1)) ∧
        (∀ h, halfWeight h w.bits g s = bitsOf w.bits (2 ^ (s - 1)) ∧
          (halfWeight h w.bits g s).toNat = 2 ^ (s - 1) ∧ (halfWeight h w.bits g s).toInt = 2 ^ (s - 1))) ∧
    (s = 0 ∨ maxShift w.bits g < s → ∀ h, halfWeight h w.bits g s = bitsOf w.bits 0)

/-- 40_datapath.md R77: the shift stage gives the floor, by an arithmetic shift for signed and a zero-filling one for
unsigned values. -/
def Obligations.ShiftStageGivesTheFloor : Prop :=
  ∀ (w : Width) (p : BitVec w.bits) (s : Nat),
    (truncated .signed p s = asr p s ∧ truncated .unsigned p s = lsr p s) ∧
      ∀ g, val g (truncated g p s) = ⌊(val g p : ℚ) / 2 ^ s⌋

/-- 40_datapath.md R78: the discarded low bits are the non-negative remainder of the floor division. -/
def Obligations.LowBitsAreTheRemainder : Prop :=
  ∀ (w : Width) (g : Signedness) (h : HalfStrategy) (p : BitVec w.bits) (s : Nat),
    1 ≤ s → s ≤ maxShift w.bits g →
      let half := halfWeight h w.bits g s
      (half <<< 1).toNat = 2 ^ s ∧
        lowBits p half = p &&& bitsOf w.bits (2 ^ s - 1) ∧
        lowBits p half = (p.extractLsb' 0 s).setWidth w.bits ∧
        (lowBits p half).toNat = p.toNat % 2 ^ s ∧
        val g p = val g (truncated g p s) * 2 ^ s + (lowBits p half).toNat

/-- 40_datapath.md R79: the two comparisons; together they find exactly the ties. -/
def Obligations.DetectorFindsExactTies : Prop :=
  ∀ (w : Width) (g : Signedness) (h : HalfStrategy) (p : BitVec w.bits) (s : Nat),
    1 ≤ s → s ≤ maxShift w.bits g →
      let half := halfWeight h w.bits g s
      let low := lowBits p half
      (detectGe low half = true ↔ low.toNat ≥ half.toNat) ∧
        (detectGt low half = true ↔ low.toNat > half.toNat) ∧
        ((detectGe low half = true ∧ detectGt low half = false) ↔
          (val g p : ℚ) / 2 ^ s = ⌊(val g p : ℚ) / 2 ^ s⌋ + 1 / 2)

/-- 40_datapath.md R80: the bit-level form of the detector agrees with the comparisons. -/
def Obligations.BitLevelDetectorAgrees : Prop :=
  ∀ (w : Width) (g : Signedness) (h : HalfStrategy) (p : BitVec w.bits) (s : Nat),
    1 ≤ s → s ≤ maxShift w.bits g →
      let half := halfWeight h w.bits g s
      detectGe (lowBits p half) half = bitGe p s ∧ detectGt (lowBits p half) half = bitGt p s ∧
        bitGe p s = p.getLsbD (s - 1) ∧ (s = 1 → bitGt p s = false)

/-- 40_datapath.md R81 and R82: the sign, and the round-up decision by its three cases. -/
def Obligations.SignAndRoundUpDecision : Prop :=
  ∀ (w : Width) (p : BitVec w.bits) (ge gt : Bool),
    ((negative .signed p = true ↔ p.toInt < 0) ∧ negative .signed p = p.getLsbD (w.bits - 1) ∧
      negative .unsigned p = false) ∧
    (roundUp (negative .unsigned p) ge gt = ge ∧ (0 ≤ p.toInt → roundUp (negative .signed p) ge gt = ge) ∧
      (p.toInt < 0 → roundUp (negative .signed p) ge gt = gt))

/-- 40_datapath.md R83: the increment never wraps. -/
def Obligations.IncrementNeverWraps : Prop :=
  ∀ (w : Width) (g : Signedness) (p : BitVec w.bits) (s : Nat) (inc : Bool),
    1 ≤ s → s ≤ maxShift w.bits g →
      increment (truncated g p s) inc = bitsOf w.bits ((truncated g p s).toNat + (if inc then 1 else 0)) ∧
        val g (increment (truncated g p s) inc) = val g (truncated g p s) + (if inc then 1 else 0)

/-- 40_datapath.md R84: the three-way selection, with its priority. -/
def Obligations.ResultSelectionByPriority : Prop :=
  ∀ (w : Width) (g : Signedness) (h : HalfStrategy) (p : BitVec w.bits) (s : Nat),
    scaled h g p s =
      if maxShift w.bits g < s then bitsOf w.bits 0 else if s = 0 then p else rounded h g p s

/-- 40_datapath.md R85: the 64-bit port reads as the integer the N-bit result is. -/
def Obligations.PortReadsAsTheResult : Prop :=
  (∀ (w : Width) (g : Signedness) (r : BitVec w.bits),
    val g (extendResult g r) = val g r ∧ (extendResult g r).extractLsb' 0 w.bits = r) ∧
  (∀ (g : Signedness) (r : BitVec 64), extendResult g r = r) ∧
  (∀ (w : Width) (g : Signedness), extendResult g (bitsOf w.bits 0) = 0)

/-- A legal FIXED instance never gives the sentinel and never skips the rounding (40_datapath.md R86). -/
def Obligations.FixedInstanceAlwaysRounds : Prop :=
  ∀ (s : State) (w : Width) (g : Signedness) (k : Nat) (c : Command) (rest : List Command),
    s.inst.shiftMode = .fixed w g k → legalMode (.fixed w g k) = true → s.pending = c :: rest →
      ∃ op : Op, (op = .rscale ↔ c.cmd.getLsbD 3 = true) ∧
        step s = .next (s.afterCommand c rest (extendResult g
          (rounded s.inst.halfStrategy g (product (operandA w.bits c.num) (operandB op w.bits c.mul)) k)))

/-- A FIXED instance gives what a RUNTIME instance gives for the word made of FIXED_SHIFT, op, FIXED_SIGNED and
FIXED_WIDTH, with the same operands (40_datapath.md R86). -/
def Obligations.FixedInstanceEqualsRuntime : Prop :=
  ∀ (s u : State) (w : Width) (g : Signedness) (k : Nat) (c d : Command) (rest rest' : List Command),
    s.inst.shiftMode = .fixed w g k → u.inst.shiftMode = .runtime → legalMode (.fixed w g k) = true →
      s.pending = c :: rest → u.pending = d :: rest' → c.num = d.num → c.mul = d.mul →
        d.cmd = encode (makeInstr (if c.cmd.getLsbD 3 then .rscale else .rshift) g w (BitVec.ofNat 8 k)) →
          ∃ r : Port, step s = .next (s.afterCommand c rest r) ∧ step u = .next (u.afterCommand d rest' r)

/-! ### Exact rounding and the conditions -/

/-- 40_datapath.md R87: every command with a valid shift from 1 rounds its working-width value exactly, ties away
from zero. -/
def Obligations.WorkingValueIsRoundedExactly : Prop :=
  ∀ (i : Instr) (s : State), 1 ≤ i.shift.toNat → i.shift.toNat ≤ maxShift i.width.bits i.sgn →
    let p := product (operandA i.width.bits s.num) (operandB i.op i.width.bits s.mul)
    ∃ r : BitVec i.width.bits, exec i s = .next (s.withResult (extendResult i.sgn r)) ∧
      val i.sgn r = ROUND ((val i.sgn p : ℚ) / 2 ^ i.shift.toNat)

/-- 40_datapath.md R88: where the product does not overflow, the exact product of the operands is rounded; for
RSHIFT always the operand; for a zero shift the product itself; where it overflows, the wrapped product. -/
def Obligations.OperandsAreRoundedExactly : Prop :=
  ∀ (i : Instr) (s : State), i.shift.toNat ≤ maxShift i.width.bits i.sgn →
    let a := operandA i.width.bits s.num
    let b := operandB i.op i.width.bits s.mul
    ∃ r : BitVec i.width.bits, exec i s = .next (s.withResult (extendResult i.sgn r)) ∧
      (arithmeticOverflow i s.num s.mul = false →
        val i.sgn r = ROUND ((val i.sgn a : ℚ) * (val i.sgn b : ℚ) / 2 ^ i.shift.toNat) ∧
        (i.shift = 0 → val i.sgn r = val i.sgn a * val i.sgn b)) ∧
      (arithmeticOverflow i s.num s.mul = true →
        val i.sgn r = ROUND ((val i.sgn (product a b) : ℚ) / 2 ^ i.shift.toNat)) ∧
      (i.op = .rshift → val i.sgn r = ROUND ((val i.sgn a : ℚ) / 2 ^ i.shift.toNat))

/-- What each governing condition means for the result (60_exceptions.md R141, R142, R143, R145). -/
def Obligations.ConditionsGovernTheResult : Prop :=
  ∀ (i : Instr) (s : State),
    let a := operandA i.width.bits s.num
    let b := operandB i.op i.width.bits s.mul
    ∃ r : BitVec i.width.bits, exec i s = .next (s.withResult (extendResult i.sgn r)) ∧
      match governingCondition i s.num s.mul with
      | .invalidShift => r = 0
      | .arithmeticOverflow => val i.sgn r = ROUND ((val i.sgn (product a b) : ℚ) / 2 ^ i.shift.toNat)
      | .none => val i.sgn r = ROUND ((val i.sgn a : ℚ) * (val i.sgn b : ℚ) / 2 ^ i.shift.toNat)

/-- 60_exceptions.md R145: a command that meets both conditions gives 0, and some commands do. -/
def Obligations.InvalidShiftGovernsOverOverflow : Prop :=
  (∃ (i : Instr) (num mul : Port), invalidShift i = true ∧ arithmeticOverflow i num mul = true) ∧
  ∀ (i : Instr) (s : State), invalidShift i = true → arithmeticOverflow i s.num s.mul = true →
    governingCondition i s.num s.mul = .invalidShift ∧ exec i s = .next (s.withResult 0)

/-- Overflow is the exact product leaving the working width, and RSHIFT never meets it (60_exceptions.md R142). -/
def Obligations.OverflowIsTheProductLeavingTheWidth : Prop :=
  ∀ (i : Instr) (num mul : Port),
    (arithmeticOverflow i num mul = true ↔
      val i.sgn (product (operandA i.width.bits num) (operandB i.op i.width.bits mul)) ≠ exactProduct i num mul) ∧
    (i.op = .rshift → arithmeticOverflow i num mul = false)

/-- 60_exceptions.md R153: a valid command can return 0 too, and nothing tells its state from the sentinel's. -/
def Obligations.SentinelIsAmbiguous : Prop :=
  ∀ s : State,
    exec (.rshiftU8 3) { s with num := 0 } = .next (State.withResult { s with num := 0 } 0) ∧
    exec (.rshiftU8 8) { s with num := 0 } = .next (State.withResult { s with num := 0 } 0) ∧
    exec (.rscaleI8 2) { s with num := -1, mul := 1 } =
      .next (State.withResult { s with num := -1, mul := 1 } 0) ∧
    exec (.rscaleI8 7) { s with num := -1, mul := 1 } =
      .next (State.withResult { s with num := -1, mul := 1 } 0)

/-! ### Laws of RSHIFT -/

/-- 42_rshift.md R128: RSHIFT equals RSCALE by 1, for valid and invalid shifts; its product never overflows, and for
a valid shift it gives the exact rounded quotient. -/
def Obligations.ShiftIsScaleByOne : Prop :=
  ∀ (g : Signedness) (w : Width) (k : ShiftField) (s : State),
    (∃ r : Port, exec (makeInstr .rshift g w k) s = .next (s.withResult r) ∧
      exec (makeInstr .rscale g w k) { s with mul := 1 } = .next (State.withResult { s with mul := 1 } r)) ∧
    arithmeticOverflow (makeInstr .rshift g w k) s.num s.mul = false ∧
    (k.toNat ≤ maxShift w.bits g → ∃ r : BitVec w.bits,
      exec (makeInstr .rshift g w k) s = .next (s.withResult (extendResult g r)) ∧
        val g r = ROUND ((val g (operandA w.bits s.num) : ℚ) / 2 ^ k.toNat))

/-- 42_rshift.md R129: a zero shift is the identity on the N operand bits; a FIXED zero shift cannot be elaborated. -/
def Obligations.ZeroShiftIsTheIdentity : Prop :=
  (∀ (g : Signedness) (w : Width) (s : State),
    exec (makeInstr .rshift g w 0) s = .next (s.withResult (extendResult g (s.num.extractLsb' 0 w.bits)))) ∧
  (∀ (width : Int) (g : Signedness) (h : HalfStrategy) (l : Nat) (il : Bool),
    ¬ ∃ s, elaborate ⟨.fixed width g 0, h, l, il⟩ = .ok s)

/-- 42_rshift.md R130: for a fixed type and shift, RSHIFT is monotone; the last clause is its second part, that an
invalid shift gives 0 for every operand. -/
def Obligations.ShiftIsMonotone : Prop :=
  ∀ (g : Signedness) (w : Width) (k : ShiftField) (s u : State),
    val g (operandA w.bits s.num) ≤ val g (operandA w.bits u.num) →
      ∃ r q : BitVec w.bits,
        exec (makeInstr .rshift g w k) s = .next (s.withResult (extendResult g r)) ∧
        exec (makeInstr .rshift g w k) u = .next (u.withResult (extendResult g q)) ∧
        val g r ≤ val g q ∧ (maxShift w.bits g < k.toNat → r = 0 ∧ q = 0)

/-- 42_rshift.md R131: the range of an RSHIFT result, and [-2, 2] for a signed type at MaxShift. -/
def Obligations.ShiftResultRange : Prop :=
  ∀ (g : Signedness) (w : Width) (k : ShiftField) (s : State),
    1 ≤ k.toNat → k.toNat ≤ maxShift w.bits g →
      ∃ r : BitVec w.bits,
        exec (makeInstr .rshift g w k) s = .next (s.withResult (extendResult g r)) ∧
        ROUND ((minValue g w.bits : ℚ) / 2 ^ k.toNat) ≤ val g r ∧
        val g r ≤ ROUND ((maxValue g w.bits : ℚ) / 2 ^ k.toNat) ∧
        (g = .unsigned → ROUND ((minValue g w.bits : ℚ) / 2 ^ k.toNat) = 0) ∧
        (g = .signed → k.toNat = w.bits - 2 →
          ROUND ((minValue g w.bits : ℚ) / 2 ^ k.toNat) = -2 ∧ ROUND ((maxValue g w.bits : ℚ) / 2 ^ k.toNat) = 2)

/-! ### The assembler -/

/-- A parsed line the assembler takes becomes a command whose word decodes, on a RUNTIME instance, to the instruction
the line names, and on a FIXED one to the instance's own; num carries the first literal, and mul the second for
RSCALE and 0 for RSHIFT (30_encoding.md R61). -/
def Obligations.AssembledLineBecomesItsInstruction : Prop :=
  ∀ (m : ShiftMode) (l : AsmLine) (c : Command), legalMode m = true → assembleLine m l = .ok c →
    (∃ k : ShiftField, decodeFor m c.cmd = makeInstr l.op l.sgn l.width k ∧ decode c.cmd = decodeFor m c.cmd ∧
      (m = .runtime → l.operands.getLast? = some (.dec k.toNat)) ∧
      (∀ w g f, m = .fixed w g f → l.width = w ∧ l.sgn = g ∧ k.toNat = f)) ∧
    (∃ x, l.operands.head? = some x ∧ literalPattern l.sgn l.width.bits x = some (operandA l.width.bits c.num)) ∧
    (l.op = .rscale → ∃ y, l.operands[1]? = some y ∧
      literalPattern l.sgn l.width.bits y = some (c.mul.extractLsb' 0 l.width.bits)) ∧
    (l.op = .rshift → c.mul = 0)

/-- Which literals the assembler takes (30_encoding.md R61): its ranges, and nothing else. -/
def Obligations.AssemblerTakesLiteralsInRange : Prop :=
  ∀ (w : Width),
    (∀ v : Int, (∃ p, literalPort .unsigned w.bits (.dec v) = .ok p) ↔ 0 ≤ v ∧ v ≤ 2 ^ w.bits - 1) ∧
    (∀ v : Int, (∃ p, literalPort .signed w.bits (.dec v) = .ok p) ↔
      -2 ^ (w.bits - 1) ≤ v ∧ v ≤ 2 ^ (w.bits - 1) - 1) ∧
    (∀ (g : Signedness) (v : Nat), (∃ p, literalPort g w.bits (.hex v) = .ok p) ↔ v < 2 ^ w.bits) ∧
    (∀ (g : Signedness) (v : Int) (p : Port), literalPort g w.bits (.dec v) = .ok p → val g p = v) ∧
    (∀ v : Int, (∃ k, shiftLiteral (.dec v) = .ok k) ↔ 0 ≤ v ∧ v ≤ 255)

/-! ### Clock cycles -/

/-- A command driven in some cycle stands complete on `result` LATENCY cycles later, whatever was in flight before,
in the order driven, where the instance latches its inputs or they are held (00_scope.md R12, 20_memory.md R45,
70_reset_and_hazards.md R165, R166). That each cycle's inputs are a command, and that held counts the
cycle the result becomes valid in, are the model's: log entry 6. -/
def Obligations.ClockedBlockCompletesInOrder : Prop :=
  ∀ (t : Timed) (cs : List Command) (j : Nat) (c : Command),
    legalMode t.inst.shiftMode = true → j + t.inst.latency < cs.length → cs[j]? = some c →
      (t.inst.inputLatched = true ∨ ∀ i, j ≤ i → i ≤ j + t.inst.latency → cs[i]? = some c) →
        (t.cycles ((cs.take (j + t.inst.latency + 1)).map .drive)).result =
          specExec t.inst.shiftMode c.cmd c.num c.mul

/-- Reset loses what was in flight, and until a command has completed after it `result` is unspecified
(70_reset_and_hazards.md R161); with LATENCY 0 nothing is ever in flight. The clocked view is the model's, log entry 6,
and so is that two blocks at one draw take the same free values, log entry 1: they stand for one with two histories. -/
def Obligations.ResetLosesCommandsInFlight : Prop :=
  (∀ (t u : Timed) (xs : List CycleInput), t.inst = u.inst → t.draws = u.draws →
    t.cycles (.reset :: xs) = u.cycles (.reset :: xs)) ∧
  ∀ (t : Timed) (cs : List Command), cs.length ≤ t.inst.latency →
    (t.cycles (.reset :: cs.map .drive)).result = Config.unspecifiedResult (t.draws + cs.length)
end

