-- ==== Sys2Proof/Laws/Datapath.lean ====
section
/-!
SUPPORT. What the shared operations of the datapath answer, said once: the three-way selection and the half-bit
weight by cases, and the four widths.
-/

namespace Sys2Proof.Machine

/-- An invalid shift selects the sentinel (40_datapath.md R84). -/
@[simp] theorem selectResult_invalid {n : Nat} (s : Nat) (p rnd : BitVec n) : selectResult false s p rnd = 0#n := rfl

/-- A valid zero shift selects p (40_datapath.md R84). -/
@[simp] theorem selectResult_zero {n : Nat} (p rnd : BitVec n) : selectResult true 0 p rnd = p := rfl

/-- A valid shift from 1 selects the rounded value (40_datapath.md R84). -/
theorem selectResult_rounded {n s : Nat} (h : s ≠ 0) (p rnd : BitVec n) : selectResult true s p rnd = rnd := by
  simp [selectResult, h]

/-- The range check, as a proposition (40_datapath.md R74). -/
theorem shiftValid_iff (n : Nat) (g : Signedness) (s : Nat) : shiftValid n g s = true ↔ s ≤ maxShift n g := by
  simp [shiftValid]

/-- Every working width has at least 8 bits. -/
theorem width_eight_le_bits (w : Width) : 8 ≤ w.bits := by
  cases w <;> decide

/-- No working width has more bits than a port. -/
theorem width_bits_le_port (w : Width) : w.bits ≤ 64 := by
  cases w <;> decide

/-- A valid shift is below the working width. -/
theorem maxShift_lt_bits (w : Width) (g : Signedness) : maxShift w.bits g < w.bits := by
  cases w <;> cases g <;> decide

end Sys2Proof.Machine
end

