-- ==== Sys2Proof/Laws/Decode.lean ====
section
/-!
SUPPORT. The command word as a number and by its fields, said once, and the parts an instruction is made of.
-/

namespace Sys2Proof

/-- The command word as a number (30_encoding.md R56). -/
theorem commandWord_toNat (k : ShiftField) (opcode : BitVec 4) :
    (commandWord k opcode).toNat = 16 * k.toNat + opcode.toNat := by
  have h := BitVec.toNat_append k opcode
  have hlt : opcode.toNat < 2 ^ 4 := opcode.isLt
  rw [← Nat.shiftLeft_add_eq_or_of_lt hlt, Nat.shiftLeft_eq] at h
  unfold commandWord
  omega

/-- Bits 3:0 of a command word are its opcode's. -/
theorem commandWord_getLsbD {j : Nat} (h : j < 4) (k : ShiftField) (opcode : BitVec 4) :
    (commandWord k opcode).getLsbD j = opcode.getLsbD j := by
  have e := BitVec.getLsbD_append (x := k) (y := opcode) (i := j)
  rw [if_pos h] at e
  exact e

/-- Bits 11:4 of a command word are its shift. -/
theorem shiftField_commandWord (k : ShiftField) (opcode : BitVec 4) : shiftField (commandWord k opcode) = k :=
  BitVec.extractLsb'_append_eq_left

@[simp] theorem makeInstr_op (op : Op) (g : Signedness) (w : Width) (k : ShiftField) :
    (makeInstr op g w k).op = op := by
  cases op <;> cases g <;> cases w <;> rfl

@[simp] theorem makeInstr_sgn (op : Op) (g : Signedness) (w : Width) (k : ShiftField) :
    (makeInstr op g w k).sgn = g := by
  cases op <;> cases g <;> cases w <;> rfl

@[simp] theorem makeInstr_width (op : Op) (g : Signedness) (w : Width) (k : ShiftField) :
    (makeInstr op g w k).width = w := by
  cases op <;> cases g <;> cases w <;> rfl

@[simp] theorem makeInstr_shift (op : Op) (g : Signedness) (w : Width) (k : ShiftField) :
    (makeInstr op g w k).shift = k := by
  cases op <;> cases g <;> cases w <;> rfl

/-- An instruction is made of its operation, type and shift. -/
theorem makeInstr_eta (i : Instr) : makeInstr i.op i.sgn i.width i.shift = i := by
  cases i <;> rfl

end Sys2Proof
end

