-- ==== Sys2Proof/Laws/State.lean ====
section
/-!
SUPPORT. One lemma per field of State and per update of it, so that no proof unfolds a record update.
-/

namespace Sys2Proof.Machine

@[simp] theorem State.present_inst (s : State) (c : Command) (rest : List Command) : (s.present c rest).inst = s.inst := rfl
@[simp] theorem State.present_cmd (s : State) (c : Command) (rest : List Command) : (s.present c rest).cmd = c.cmd := rfl
@[simp] theorem State.present_num (s : State) (c : Command) (rest : List Command) : (s.present c rest).num = c.num := rfl
@[simp] theorem State.present_mul (s : State) (c : Command) (rest : List Command) : (s.present c rest).mul = c.mul := rfl
@[simp] theorem State.present_result (s : State) (c : Command) (rest : List Command) : (s.present c rest).result = s.result := rfl
@[simp] theorem State.present_pending (s : State) (c : Command) (rest : List Command) : (s.present c rest).pending = rest := rfl
@[simp] theorem State.present_results (s : State) (c : Command) (rest : List Command) : (s.present c rest).results = s.results := rfl
@[simp] theorem State.present_resultValid (s : State) (c : Command) (rest : List Command) : (s.present c rest).resultValid = s.resultValid := rfl
@[simp] theorem State.present_draws (s : State) (c : Command) (rest : List Command) : (s.present c rest).draws = s.draws := rfl

@[simp] theorem State.driveResult_inst (s : State) (r : Port) : (s.driveResult r).inst = s.inst := rfl
@[simp] theorem State.driveResult_cmd (s : State) (r : Port) : (s.driveResult r).cmd = s.cmd := rfl
@[simp] theorem State.driveResult_num (s : State) (r : Port) : (s.driveResult r).num = s.num := rfl
@[simp] theorem State.driveResult_mul (s : State) (r : Port) : (s.driveResult r).mul = s.mul := rfl
@[simp] theorem State.driveResult_result (s : State) (r : Port) : (s.driveResult r).result = r := rfl
@[simp] theorem State.driveResult_pending (s : State) (r : Port) : (s.driveResult r).pending = s.pending := rfl
@[simp] theorem State.driveResult_results (s : State) (r : Port) : (s.driveResult r).results = s.results := rfl
@[simp] theorem State.driveResult_resultValid (s : State) (r : Port) : (s.driveResult r).resultValid = true := rfl
@[simp] theorem State.driveResult_draws (s : State) (r : Port) : (s.driveResult r).draws = s.draws := rfl

@[simp] theorem State.observe_inst (s : State) : s.observe.inst = s.inst := rfl
@[simp] theorem State.observe_cmd (s : State) : s.observe.cmd = s.cmd := rfl
@[simp] theorem State.observe_num (s : State) : s.observe.num = s.num := rfl
@[simp] theorem State.observe_mul (s : State) : s.observe.mul = s.mul := rfl
@[simp] theorem State.observe_result (s : State) : s.observe.result = s.result := rfl
@[simp] theorem State.observe_pending (s : State) : s.observe.pending = s.pending := rfl
@[simp] theorem State.observe_results (s : State) : s.observe.results = s.results ++ [s.result] := rfl
@[simp] theorem State.observe_resultValid (s : State) : s.observe.resultValid = s.resultValid := rfl
@[simp] theorem State.observe_draws (s : State) : s.observe.draws = s.draws := rfl

@[simp] theorem State.drawResult_inst (s : State) : s.drawResult.inst = s.inst := rfl
@[simp] theorem State.drawResult_cmd (s : State) : s.drawResult.cmd = s.cmd := rfl
@[simp] theorem State.drawResult_num (s : State) : s.drawResult.num = s.num := rfl
@[simp] theorem State.drawResult_mul (s : State) : s.drawResult.mul = s.mul := rfl
@[simp] theorem State.drawResult_result (s : State) : s.drawResult.result = Config.unspecifiedResult s.draws := rfl
@[simp] theorem State.drawResult_pending (s : State) : s.drawResult.pending = s.pending := rfl
@[simp] theorem State.drawResult_results (s : State) : s.drawResult.results = s.results := rfl
@[simp] theorem State.drawResult_resultValid (s : State) : s.drawResult.resultValid = s.resultValid := rfl
@[simp] theorem State.drawResult_draws (s : State) : s.drawResult.draws = s.draws + 1 := rfl

@[simp] theorem State.assertReset_inst (s : State) : s.assertReset.inst = s.inst := rfl
@[simp] theorem State.assertReset_cmd (s : State) : s.assertReset.cmd = s.cmd := rfl
@[simp] theorem State.assertReset_num (s : State) : s.assertReset.num = s.num := rfl
@[simp] theorem State.assertReset_mul (s : State) : s.assertReset.mul = s.mul := rfl
@[simp] theorem State.assertReset_result (s : State) : s.assertReset.result = Config.unspecifiedResult s.draws := rfl
@[simp] theorem State.assertReset_pending (s : State) : s.assertReset.pending = s.pending := rfl
@[simp] theorem State.assertReset_results (s : State) : s.assertReset.results = s.results := rfl
@[simp] theorem State.assertReset_resultValid (s : State) : s.assertReset.resultValid = false := rfl
@[simp] theorem State.assertReset_draws (s : State) : s.assertReset.draws = s.draws + 1 := rfl

/-- Waiting changes nothing once a command has completed. -/
theorem State.idle_of_valid {s : State} (h : s.resultValid = true) : s.idle = s := by
  simp [State.idle, h]

/-- Before a command has completed, waiting draws a fresh value of `result`. -/
theorem State.idle_of_not_valid {s : State} (h : s.resultValid = false) : s.idle = s.drawResult := by
  simp [State.idle, h]

@[simp] theorem State.idle_inst (s : State) : s.idle.inst = s.inst := by
  unfold State.idle; split <;> rfl
@[simp] theorem State.idle_cmd (s : State) : s.idle.cmd = s.cmd := by
  unfold State.idle; split <;> rfl
@[simp] theorem State.idle_num (s : State) : s.idle.num = s.num := by
  unfold State.idle; split <;> rfl
@[simp] theorem State.idle_mul (s : State) : s.idle.mul = s.mul := by
  unfold State.idle; split <;> rfl
@[simp] theorem State.idle_pending (s : State) : s.idle.pending = s.pending := by
  unfold State.idle; split <;> rfl
@[simp] theorem State.idle_results (s : State) : s.idle.results = s.results := by
  unfold State.idle; split <;> rfl
@[simp] theorem State.idle_resultValid (s : State) : s.idle.resultValid = s.resultValid := by
  unfold State.idle; split <;> rfl

/-- The instance placing a word leaves alone. -/
@[simp] theorem State.placeWord_inst (w : CommandWord) (s : State) : (s.placeWord w).inst = s.inst := by
  unfold State.placeWord; split <;> rfl

/-- After a word has been placed a command is pending, and its word is the one placed. -/
theorem State.placeWord_pending (w : CommandWord) (s : State) :
    ∃ c rest, (s.placeWord w).pending = c :: rest ∧ c.cmd = w := by
  unfold State.placeWord
  split
  · exact ⟨_, _, rfl, rfl⟩
  · exact ⟨_, _, rfl, rfl⟩

end Sys2Proof.Machine
end

