-- ==== Sys2Proof/Laws/Exec.lean ====
section
/-!
SUPPORT. What the shared operations of a step can do, said once: the dispatch, fetching, observing and the step.
-/

namespace Sys2Proof.Machine

/-- Every meaning is the shared operation at the instruction's own operation, type and shift. -/
theorem exec_eq_perform (i : Instr) (s : State) : exec i s = perform i.op i.sgn i.width i.shift s := by
  cases i <;> rfl

/-- The meaning of an instruction given by its parts. -/
theorem exec_makeInstr (op : Op) (g : Signedness) (w : Width) (k : ShiftField) (s : State) :
    exec (makeInstr op g w k) s = perform op g w k s := by
  cases op <;> cases g <;> cases w <;> rfl

/-- The shared operation drives `result` and does nothing else. -/
theorem perform_eq (op : Op) (g : Signedness) (w : Width) (k : ShiftField) (s : State) :
    perform op g w k s =
      .next (s.driveResult (compute s.inst.halfStrategy op g w.bits k.toNat s.num s.mul)) := rfl

/-- What a command drives on `result`. -/
theorem exec_eq_driveResult (i : Instr) (s : State) :
    exec i s = .next (s.driveResult (compute s.inst.halfStrategy i.op i.sgn i.width.bits i.shift.toNat s.num s.mul)) := by
  rw [exec_eq_perform, perform_eq]

/-- Fetching finds nothing, or the run's next command. -/
theorem fetch_cases (s : State) :
    (s.pending = [] ∧ fetch s = none) ∨
      ∃ c rest, s.pending = c :: rest ∧
        fetch s = some (decodeFor s.inst.shiftMode c.cmd, s.present c rest) := by
  unfold fetch
  cases s.pending with
  | nil => exact .inl ⟨rfl, rfl⟩
  | cons c rest => exact .inr ⟨c, rest, rfl, rfl⟩

/-- Everything a step can do. -/
theorem step_cases {s t : State} (h : step s = .next t) :
    (s.pending = [] ∧ t = s.idle) ∨
      ∃ c rest, s.pending = c :: rest ∧
        t = ((s.present c rest).driveResult
          (compute s.inst.halfStrategy (decodeFor s.inst.shiftMode c.cmd).op
            (decodeFor s.inst.shiftMode c.cmd).sgn (decodeFor s.inst.shiftMode c.cmd).width.bits
            (decodeFor s.inst.shiftMode c.cmd).shift.toNat c.num c.mul)).observe := by
  rcases fetch_cases s with ⟨hp, hf⟩ | ⟨c, rest, hp, hf⟩
  · rw [step, hf] at h
    cases h
    exact .inl ⟨hp, rfl⟩
  · rw [step, hf] at h
    simp only [exec_eq_driveResult, observed, Host.Outcome.next.injEq] at h
    exact .inr ⟨c, rest, hp, h.symm⟩

/-- A run of any machine whose first step answers a next state. -/
theorem run_succ (M : Host.Core) {k : Nat} {s t : M.State} (h : M.step s = .next t) :
    M.run (k + 1) s = M.run k t := by
  simp only [Host.Core.run, h]

/-- A run of this machine whose first step answers a next state. -/
theorem core_run_succ {k : Nat} {s t : State} (h : step s = .next t) :
    Host.Core.run core (k + 1) s = Host.Core.run core k t :=
  run_succ core h

end Sys2Proof.Machine
end

