-- ==== Sys2Proof/Laws/PerInstr.lean ====
section
/-!
SUPPORT. The family of statements made per instruction: each instruction carries its shift in bits 11:4 of its word,
belongs to every RUNTIME instance, and belongs to the FIXED instance of its own type and shift.
-/

namespace Sys2Proof.Laws.Encoding

def Statement (i : Instr) : Prop :=
  shiftField (encode i) = i.shift ∧ WellFormed .runtime i = true ∧
    WellFormed (.fixed i.width i.sgn i.shift.toNat) i = true

theorem rscaleU8 (k : ShiftField) : Statement (.rscaleU8 k) :=
  ⟨shiftField_commandWord k _, rfl, by simp [WellFormed]⟩

theorem rscaleU16 (k : ShiftField) : Statement (.rscaleU16 k) :=
  ⟨shiftField_commandWord k _, rfl, by simp [WellFormed]⟩

theorem rscaleU32 (k : ShiftField) : Statement (.rscaleU32 k) :=
  ⟨shiftField_commandWord k _, rfl, by simp [WellFormed]⟩

theorem rscaleU64 (k : ShiftField) : Statement (.rscaleU64 k) :=
  ⟨shiftField_commandWord k _, rfl, by simp [WellFormed]⟩

theorem rscaleI8 (k : ShiftField) : Statement (.rscaleI8 k) :=
  ⟨shiftField_commandWord k _, rfl, by simp [WellFormed]⟩

theorem rscaleI16 (k : ShiftField) : Statement (.rscaleI16 k) :=
  ⟨shiftField_commandWord k _, rfl, by simp [WellFormed]⟩

theorem rscaleI32 (k : ShiftField) : Statement (.rscaleI32 k) :=
  ⟨shiftField_commandWord k _, rfl, by simp [WellFormed]⟩

theorem rscaleI64 (k : ShiftField) : Statement (.rscaleI64 k) :=
  ⟨shiftField_commandWord k _, rfl, by simp [WellFormed]⟩

theorem rshiftU8 (k : ShiftField) : Statement (.rshiftU8 k) :=
  ⟨shiftField_commandWord k _, rfl, by simp [WellFormed]⟩

theorem rshiftU16 (k : ShiftField) : Statement (.rshiftU16 k) :=
  ⟨shiftField_commandWord k _, rfl, by simp [WellFormed]⟩

theorem rshiftU32 (k : ShiftField) : Statement (.rshiftU32 k) :=
  ⟨shiftField_commandWord k _, rfl, by simp [WellFormed]⟩

theorem rshiftU64 (k : ShiftField) : Statement (.rshiftU64 k) :=
  ⟨shiftField_commandWord k _, rfl, by simp [WellFormed]⟩

theorem rshiftI8 (k : ShiftField) : Statement (.rshiftI8 k) :=
  ⟨shiftField_commandWord k _, rfl, by simp [WellFormed]⟩

theorem rshiftI16 (k : ShiftField) : Statement (.rshiftI16 k) :=
  ⟨shiftField_commandWord k _, rfl, by simp [WellFormed]⟩

theorem rshiftI32 (k : ShiftField) : Statement (.rshiftI32 k) :=
  ⟨shiftField_commandWord k _, rfl, by simp [WellFormed]⟩

theorem rshiftI64 (k : ShiftField) : Statement (.rshiftI64 k) :=
  ⟨shiftField_commandWord k _, rfl, by simp [WellFormed]⟩

end Sys2Proof.Laws.Encoding
end

