-- ==== Sys2Proof/Laws/Timed.lean ====
section
/-!
SUPPORT. The clocked view: what a cycle keeps of the window, and that it drives what the atomic command drives.
-/

namespace Sys2Proof.Machine

@[simp] theorem Timed.cycle_inst (t : Timed) (x : CycleInput) : (t.cycle x).inst = t.inst := by
  cases x with
  | reset => rfl
  | drive c => simp only [Timed.cycle]; split <;> rfl

@[simp] theorem Timed.cycle_drive_window (t : Timed) (c : Command) :
    (t.cycle (.drive c)).window = (c :: t.window).take (t.inst.latency + 1) := by
  simp only [Timed.cycle]; split <;> rfl

theorem Timed.cycles_append (t : Timed) (xs ys : List CycleInput) :
    t.cycles (xs ++ ys) = (t.cycles xs).cycles ys := by
  induction xs generalizing t with
  | nil => rfl
  | cons x xs ih => exact ih (t.cycle x)

@[simp] theorem Timed.cycles_inst (t : Timed) (xs : List CycleInput) : (t.cycles xs).inst = t.inst := by
  induction xs generalizing t with
  | nil => rfl
  | cons x xs ih => exact (ih (t.cycle x)).trans (t.cycle_inst x)

/-- The window holds the values driven last, at most LATENCY + 1 of them. -/
theorem Timed.cycles_drive_window (t : Timed) (cs : List Command) (h : t.window.length ≤ t.inst.latency + 1) :
    (t.cycles (cs.map .drive)).window = (cs.reverse ++ t.window).take (t.inst.latency + 1) := by
  induction cs generalizing t with
  | nil => simp [Timed.cycles, List.take_of_length_le h]
  | cons c cs ih =>
    rw [List.map_cons, Timed.cycles, ih]
    · simp only [cycle_drive_window, cycle_inst, List.reverse_cons, List.append_assoc, List.cons_append,
        List.nil_append]
      rw [List.take_append, List.take_append, List.take_take]
      congr 2
      omega
    · simp

/-- The clocked view and the atomic command agree on the result of a command. -/
theorem exec_drives_commandResult (s : State) (c : Command) (rest : List Command) :
    exec (decodeFor s.inst.shiftMode c.cmd) (s.present c rest) =
      .next ((s.present c rest).driveResult (commandResult s.inst c)) :=
  exec_eq_driveResult _ _

end Sys2Proof.Machine
end

