-- ==== Sys2Proof/Tests/Slice0.lean ====
section
/-!
SUPPORT. The model's own tests: ill-formed terms the checks refuse, a word per constructor written out from
30_encoding.md R56, at most two vectors per instruction from 95_test_vectors.md, a few steps, and a state that meets
the hypotheses of every statement that has some.
-/

namespace Sys2Proof.Tests

open Sys2Proof.Machine

/-- A state with the given values on the operand ports. -/
def ports (num mul : Port) : State :=
  { State.reset with num := num, mul := mul }

/-- What an instruction drives on `result` for the given operands. -/
def drives (i : Instr) (num mul : Port) : Option Port :=
  resultOf (exec i (ports num mul))

/-- What a step drives on `result` for one command, on an instance of the given SHIFT_MODE. -/
def stepDrives (m : ShiftMode) (h : HalfStrategy) (cmd : CommandWord) (num mul : Port) : Option Port :=
  resultOf (step { State.powerUp ⟨m, h, 0, false⟩ with pending := [⟨cmd, num, mul⟩] })

/-! ### Well-formedness and elaboration: an ill-formed term for each check -/

theorem test_wellFormed_refuses_another_width : WellFormed (.fixed .w16 .signed 4) (.rscaleI8 4) = false := by decide
theorem test_wellFormed_refuses_another_sign : WellFormed (.fixed .w16 .signed 4) (.rscaleU16 4) = false := by decide
theorem test_wellFormed_refuses_another_shift : WellFormed (.fixed .w16 .signed 4) (.rscaleI16 5) = false := by decide
theorem test_wellFormed_takes_its_own : WellFormed (.fixed .w16 .signed 4) (.rshiftI16 4) = true := by decide
theorem test_elaboration_refuses_shift_zero :
    elaborateMode (.fixed 16 .signed 0) = .error .invalidShift := by decide
theorem test_elaboration_refuses_signed_width_minus_one :
    elaborateMode (.fixed 8 .signed 7) = .error .invalidShift := by decide
theorem test_elaboration_refuses_width_12 : elaborateMode (.fixed 12 .signed 4) = .error .badWidth := by decide
theorem test_elaboration_takes_unsigned_width_minus_one :
    elaborateMode (.fixed 64 .unsigned 63) = .ok (.fixed .w64 .unsigned 63) := by decide

/-! ### Decoding: one word per constructor, bit by bit as shift_op_sgn_wsel (30_encoding.md R50, R56) -/

theorem test_decode_rscaleU8 : decode 0b00000010_1_0_00 = .rscaleU8 2 := by decide
theorem test_decode_rscaleU16 : decode 0b00000000_1_0_01 = .rscaleU16 0 := by decide
theorem test_decode_rscaleU32 : decode 0b00011111_1_0_10 = .rscaleU32 31 := by decide
theorem test_decode_rscaleU64 : decode 0b00111111_1_0_11 = .rscaleU64 63 := by decide
theorem test_decode_rscaleI8 : decode 0b11111111_1_1_00 = .rscaleI8 255 := by decide
theorem test_decode_rscaleI16 : decode 0b00000101_1_1_01 = .rscaleI16 5 := by decide
theorem test_decode_rscaleI32 : decode 0b10000000_1_1_10 = .rscaleI32 128 := by decide
theorem test_decode_rscaleI64 : decode 0b00010100_1_1_11 = .rscaleI64 20 := by decide
theorem test_decode_rshiftU8 : decode 0b00000001_0_0_00 = .rshiftU8 1 := by decide
theorem test_decode_rshiftU16 : decode 0b00001111_0_0_01 = .rshiftU16 15 := by decide
theorem test_decode_rshiftU32 : decode 0b00100000_0_0_10 = .rshiftU32 32 := by decide
theorem test_decode_rshiftU64 : decode 0b01000000_0_0_11 = .rshiftU64 64 := by decide
theorem test_decode_rshiftI8 : decode 0b00000111_0_1_00 = .rshiftI8 7 := by decide
theorem test_decode_rshiftI16 : decode 0b00001110_0_1_01 = .rshiftI16 14 := by decide
theorem test_decode_rshiftI32 : decode 0b01010101_0_1_10 = .rshiftI32 85 := by decide
theorem test_decode_rshiftI64 : decode 0b10101010_0_1_11 = .rshiftI64 170 := by decide
theorem test_table_word : decodeTableWord 16 0x05D = some (.rscaleI16 5) := by decide
theorem test_table_word_refuses_bit_12 : decodeTableWord 16 0x105D = none := by decide

/-! ### Two vectors per instruction (95_test_vectors.md section 2) -/

/-- rscale.u8 255, 2, 1: overflow: 2·max wraps to max − 1, halved. -/
theorem test_rscaleU8_1 : drives (.rscaleU8 1) 0x00000000000000FF 0x0000000000000002 = some 0x000000000000007F := by decide
/-- rscale.u8 10, 3, 2: bits 63:8 of num and mul ignored. -/
theorem test_rscaleU8_2 : drives (.rscaleU8 2) 0xA5A5A5A5A5A5A50A 0x5A5A5A5A5A5A5A03 = some 0x0000000000000008 := by decide
/-- rscale.u16 65535, 2, 1: overflow: 2·max wraps to max − 1, halved. -/
theorem test_rscaleU16_1 : drives (.rscaleU16 1) 0x000000000000FFFF 0x0000000000000002 = some 0x0000000000007FFF := by decide
/-- rscale.u16 42250, 23043, 2: bits 63:16 of num and mul ignored. -/
theorem test_rscaleU16_2 : drives (.rscaleU16 2) 0xA5A5A5A5A5A5A50A 0x5A5A5A5A5A5A5A03 = some 0x0000000000001CC8 := by decide
/-- rscale.u32 4294967295, 2, 1: overflow: 2·max wraps to max − 1, halved. -/
theorem test_rscaleU32_1 : drives (.rscaleU32 1) 0x00000000FFFFFFFF 0x0000000000000002 = some 0x000000007FFFFFFF := by decide
/-- rscale.u32 2779096330, 1515870723, 2: bits 63:32 of num and mul ignored. -/
theorem test_rscaleU32_2 : drives (.rscaleU32 2) 0xA5A5A5A5A5A5A50A 0x5A5A5A5A5A5A5A03 = some 0x000000002D9E9CC8 := by decide
/-- rscale.u64 18446744073709551615, 2, 1: overflow: 2·max wraps to max − 1, halved. -/
theorem test_rscaleU64_1 : drives (.rscaleU64 1) 0xFFFFFFFFFFFFFFFF 0x0000000000000002 = some 0x7FFFFFFFFFFFFFFF := by decide
/-- rscale.u64 18446744073709551615, 1, 63: largest operand at MaxShift. -/
theorem test_rscaleU64_2 : drives (.rscaleU64 63) 0xFFFFFFFFFFFFFFFF 0x0000000000000001 = some 0x0000000000000002 := by decide
/-- rscale.i8 −10, 3, 2: −30/4 = −7.5 → −8, away from zero. -/
theorem test_rscaleI8_1 : drives (.rscaleI8 2) 0xFFFFFFFFFFFFFFF6 0x0000000000000003 = some 0xFFFFFFFFFFFFFFF8 := by decide
/-- rscale.i8 −128, −1, 1: overflowed product, halved. -/
theorem test_rscaleI8_2 : drives (.rscaleI8 1) 0xFFFFFFFFFFFFFF80 0xFFFFFFFFFFFFFFFF = some 0xFFFFFFFFFFFFFFC0 := by decide
/-- rscale.i16 −10, 3, 2: −30/4 = −7.5 → −8, away from zero. -/
theorem test_rscaleI16_1 : drives (.rscaleI16 2) 0xFFFFFFFFFFFFFFF6 0x0000000000000003 = some 0xFFFFFFFFFFFFFFF8 := by decide
/-- rscale.i16 −32768, −1, 1: overflowed product, halved. -/
theorem test_rscaleI16_2 : drives (.rscaleI16 1) 0xFFFFFFFFFFFF8000 0xFFFFFFFFFFFFFFFF = some 0xFFFFFFFFFFFFC000 := by decide
/-- rscale.i32 −10, 3, 2: −30/4 = −7.5 → −8, away from zero. -/
theorem test_rscaleI32_1 : drives (.rscaleI32 2) 0xFFFFFFFFFFFFFFF6 0x0000000000000003 = some 0xFFFFFFFFFFFFFFF8 := by decide
/-- rscale.i32 −2147483648, −1, 1: overflowed product, halved. -/
theorem test_rscaleI32_2 : drives (.rscaleI32 1) 0xFFFFFFFF80000000 0xFFFFFFFFFFFFFFFF = some 0xFFFFFFFFC0000000 := by decide
/-- rscale.i64 −10, 3, 2: −30/4 = −7.5 → −8, away from zero. -/
theorem test_rscaleI64_1 : drives (.rscaleI64 2) 0xFFFFFFFFFFFFFFF6 0x0000000000000003 = some 0xFFFFFFFFFFFFFFF8 := by decide
/-- rscale.i64 −9223372036854775808, −1, 1: overflowed product, halved. -/
theorem test_rscaleI64_2 : drives (.rscaleI64 1) 0x8000000000000000 0xFFFFFFFFFFFFFFFF = some 0xC000000000000000 := by decide
/-- rshift.u8 255, 1: largest operand, s = 1. -/
theorem test_rshiftU8_1 : drives (.rshiftU8 1) 0x00000000000000FF 0x5A5A5A5A5A5A5A5A = some 0x0000000000000080 := by decide
/-- rshift.u8 165, 1: bits 63:8 of num ignored. -/
theorem test_rshiftU8_2 : drives (.rshiftU8 1) 0xA5A5A5A5A5A5A5A5 0x5A5A5A5A5A5A5A5A = some 0x0000000000000053 := by decide
/-- rshift.u16 65535, 1: largest operand, s = 1. -/
theorem test_rshiftU16_1 : drives (.rshiftU16 1) 0x000000000000FFFF 0x5A5A5A5A5A5A5A5A = some 0x0000000000008000 := by decide
/-- rshift.u16 42405, 1: bits 63:16 of num ignored. -/
theorem test_rshiftU16_2 : drives (.rshiftU16 1) 0xA5A5A5A5A5A5A5A5 0x5A5A5A5A5A5A5A5A = some 0x00000000000052D3 := by decide
/-- rshift.u32 4294967295, 1: largest operand, s = 1. -/
theorem test_rshiftU32_1 : drives (.rshiftU32 1) 0x00000000FFFFFFFF 0x5A5A5A5A5A5A5A5A = some 0x0000000080000000 := by decide
/-- rshift.u32 2779096485, 1: bits 63:32 of num ignored. -/
theorem test_rshiftU32_2 : drives (.rshiftU32 1) 0xA5A5A5A5A5A5A5A5 0x5A5A5A5A5A5A5A5A = some 0x0000000052D2D2D3 := by decide
/-- rshift.u64 18446744073709551615, 1: largest operand, s = 1. -/
theorem test_rshiftU64_1 : drives (.rshiftU64 1) 0xFFFFFFFFFFFFFFFF 0x5A5A5A5A5A5A5A5A = some 0x8000000000000000 := by decide
/-- rshift.u64 18446744073709551615, 64: first invalid shift: sentinel 0. -/
theorem test_rshiftU64_2 : drives (.rshiftU64 64) 0xFFFFFFFFFFFFFFFF 0x5A5A5A5A5A5A5A5A = some 0x0000000000000000 := by decide
/-- rshift.i8 −3, 1: tie −1.5 → −2, away from zero. -/
theorem test_rshiftI8_1 : drives (.rshiftI8 1) 0xFFFFFFFFFFFFFFFD 0x5A5A5A5A5A5A5A5A = some 0xFFFFFFFFFFFFFFFE := by decide
/-- rshift.i8 −128, 7: s = N − 1 is invalid for signed: sentinel (90_conflicts.md C1). -/
theorem test_rshiftI8_2 : drives (.rshiftI8 7) 0xFFFFFFFFFFFFFF80 0x5A5A5A5A5A5A5A5A = some 0x0000000000000000 := by decide
/-- rshift.i16 −3, 1: tie −1.5 → −2, away from zero. -/
theorem test_rshiftI16_1 : drives (.rshiftI16 1) 0xFFFFFFFFFFFFFFFD 0x5A5A5A5A5A5A5A5A = some 0xFFFFFFFFFFFFFFFE := by decide
/-- rshift.i16 −32768, 15: s = N − 1 is invalid for signed: sentinel (90_conflicts.md C1). -/
theorem test_rshiftI16_2 : drives (.rshiftI16 15) 0xFFFFFFFFFFFF8000 0x5A5A5A5A5A5A5A5A = some 0x0000000000000000 := by decide
/-- rshift.i32 −3, 1: tie −1.5 → −2, away from zero. -/
theorem test_rshiftI32_1 : drives (.rshiftI32 1) 0xFFFFFFFFFFFFFFFD 0x5A5A5A5A5A5A5A5A = some 0xFFFFFFFFFFFFFFFE := by decide
/-- rshift.i32 −2147483648, 31: s = N − 1 is invalid for signed: sentinel (90_conflicts.md C1). -/
theorem test_rshiftI32_2 : drives (.rshiftI32 31) 0xFFFFFFFF80000000 0x5A5A5A5A5A5A5A5A = some 0x0000000000000000 := by decide
/-- rshift.i64 −3, 1: tie −1.5 → −2, away from zero. -/
theorem test_rshiftI64_1 : drives (.rshiftI64 1) 0xFFFFFFFFFFFFFFFD 0x5A5A5A5A5A5A5A5A = some 0xFFFFFFFFFFFFFFFE := by decide
/-- rshift.i64 −9223372036854775808, 63: s = N − 1 is invalid for signed: sentinel (90_conflicts.md C1). -/
theorem test_rshiftI64_2 : drives (.rshiftI64 63) 0x8000000000000000 0x5A5A5A5A5A5A5A5A = some 0x0000000000000000 := by decide

/-! ### Steps -/

/-- Source example E4 with its resolution (90_conflicts.md C1). -/
theorem test_step_signed_width_minus_one :
    stepDrives .runtime .computed 0x074 0xFFFFFFFFFFFFFF80 0 = some 0 := by decide

/-- Program P4 step 4: the bits a FIXED instance ignores. -/
theorem test_step_fixed_ignores_fields :
    stepDrives (.fixed .w16 .signed 4) .table 0xFF8 0x18 0x28 = some 0x3C := by decide

/-- Program P4 step 5. -/
theorem test_step_fixed_uses_its_own_shift :
    stepDrives (.fixed .w16 .signed 4) .computed 0x000 0x64 0 = some 0x06 := by decide

/-- Program P5 step 2. -/
theorem test_step_wide_signed :
    stepDrives .runtime .table 0x14F 0xFFFFFF0000000000 5 = some 0xFFFFFFFFFFB00000 := by decide

/-- The word placed after reset is the one the first step runs: RSHIFT.U8 by 0 of the 0 on the port. -/
theorem test_first_step_after_reset : resultOf (step (State.reset.withFetchWord 16 0x000)) = some 0 := by decide

theorem test_reset_has_no_command : State.reset.pending = [] := rfl

/-! ### ROUND and the assembler -/

theorem test_round_ties_away_from_zero :
    ROUND (3 / 2) = 2 ∧ ROUND (-3 / 2) = -2 ∧ ROUND (-1 / 4) = 0 ∧ ROUND (-15 / 4) = -4 := by decide +kernel

/-- 30_encoding.md R61 and 95_test_vectors.md section 2. -/
theorem test_assemble_signed :
    assemble .runtime "RScale.i8 -10, 3, 2" = .ok ⟨0x02C, 0xFFFFFFFFFFFFFFF6, 3⟩ := by decide +kernel
theorem test_assemble_hex :
    assemble .runtime "rshift.i8 0x80, 7" = .ok ⟨0x074, 0xFFFFFFFFFFFFFF80, 0⟩ := by decide +kernel
theorem test_assemble_refuses_256 :
    assemble .runtime "rshift.u8 256, 1" = .error .literalOutOfRange := by decide +kernel
theorem test_assemble_refuses_shift_256 :
    assemble .runtime "rshift.u8 1, 256" = .error .badShift := by decide +kernel
theorem test_assemble_fixed :
    assemble (.fixed .w16 .signed 4) "rscale.i16 24, 40" = .ok ⟨0x04D, 24, 40⟩ := by decide +kernel
theorem test_assemble_fixed_refuses_another_type :
    assemble (.fixed .w16 .signed 4) "rscale.u16 24, 40" = .error .notTheFixedType := by decide +kernel

/-! ### A state and operands that meet the hypotheses of each statement that has some -/

/-- rshift.i16 -24, 4 and rscale.i16 24, 40, 4, as commands. -/
def shiftCommand : Command := ⟨0x045, 0xFFFFFFFFFFFFFFE8, 7⟩
def scaleCommand : Command := ⟨0x04D, 24, 40⟩

/-- A RUNTIME instance with a run of two commands, and a FIXED one with a run of one. -/
def runtimeState : State := { State.reset with pending := [shiftCommand, scaleCommand] }
def fixedState : State :=
  { State.powerUp ⟨.fixed .w16 .signed 4, .computed, 2, true⟩ with pending := [⟨0xFF8, 24, 40⟩] }

theorem witness_ElaboratedInstancesMeetTheInvariant :
    elaborate ⟨.fixed 16 .signed 4, .table, 0, false⟩ =
      .ok (State.powerUp ⟨.fixed .w16 .signed 4, .table, 0, false⟩) := rfl

theorem witness_ElaborationAcceptsExactlyTheLegalParameters :
    elaborate ⟨.fixed 8 .unsigned 7, .computed, 0, false⟩ =
      .ok (State.powerUp ⟨.fixed .w8 .unsigned 7, .computed, 0, false⟩) ∧
    elaborate ⟨.fixed 64 .signed 1, .table, 3, true⟩ =
      .ok (State.powerUp ⟨.fixed .w64 .signed 1, .table, 3, true⟩) := ⟨rfl, rfl⟩

theorem witness_ResetChangesNoRule :
    legalMode runtimeState.inst.shiftMode = true ∧ runtimeState.pending = [shiftCommand, scaleCommand] ∧
      legalMode fixedState.inst.shiftMode = true ∧ fixedState.pending = [⟨0xFF8, 24, 40⟩] := by decide

theorem witness_DecodeOfEncodeIsTheInstruction :
    legalMode (.fixed .w16 .signed 14) = true ∧ WellFormed (.fixed .w16 .signed 14) (.rshiftI16 14) = true ∧
      legalMode .runtime = true ∧ WellFormed .runtime (.rscaleU8 255) = true := by decide

theorem witness_FixedInstanceDecodesOnlyTheOperation :
    legalMode (.fixed .w16 .signed 4) = true ∧ (0xFF8 : CommandWord).getLsbD 3 = (0x04D : CommandWord).getLsbD 3 ∧
      (0x04D : CommandWord).getLsbD 2 = true ∧ 8 <<< ((0x04D : CommandWord).extractLsb' 0 2).toNat = Width.w16.bits ∧
      ((0x04D : CommandWord).extractLsb' 4 8).toNat = 4 ∧ WellFormed (.fixed .w16 .signed 4) (.rscaleI16 4) = true := by
  decide

theorem witness_StepRunsTheDecodedInstruction : runtimeState.pending = shiftCommand :: [scaleCommand] := rfl

theorem witness_StepWithoutCommandWaits :
    (State.reset.pending = [] ∧ State.reset.resultValid = false) ∧
      ({ State.reset with resultValid := true } : State).pending = [] := ⟨⟨rfl, rfl⟩, rfl⟩

theorem witness_StepComputesExec :
    legalMode runtimeState.inst.shiftMode = true ∧ runtimeState.pending = shiftCommand :: [scaleCommand] ∧
      legalMode fixedState.inst.shiftMode = true ∧ fixedState.pending = ⟨0xFF8, 24, 40⟩ :: [] := by decide

theorem witness_RunObservesTheListOfResults :
    legalMode runtimeState.inst.shiftMode = true ∧ runtimeState.pending = [shiftCommand, scaleCommand] := by decide

/-- A state that meets the invariant with a command completed, and one with none, and a step of each. -/
theorem witness_StepKeepsTheInvariant :
    State.Inv { State.reset with result := 0, resultValid := true, results := [0] } ∧
      (∃ t, step { State.reset with result := 0, resultValid := true, results := [0] } = .next t) ∧
      State.Inv runtimeState ∧ ∃ t, step runtimeState = .next t :=
  ⟨⟨rfl, fun h => absurd h (by decide), fun _ => ⟨by decide, rfl⟩⟩, ⟨_, rfl⟩,
    ⟨rfl, fun _ => ⟨0, by decide, rfl⟩, fun h => by cases h⟩, ⟨_, rfl⟩⟩

theorem witness_StepKeepsParametersAndObservations : ∃ t, step fixedState = .next t := ⟨_, rfl⟩

theorem witness_CommandReadsInputsAndWritesResultOnly :
    (ports 3 5).num = ({ fixedState with num := 3, mul := 5 } : State).num ∧
      (ports 3 5).mul = ({ fixedState with num := 3, mul := 5 } : State).mul := ⟨rfl, rfl⟩

theorem witness_ResultIsIndependentOfHistory :
    runtimeState.inst.shiftMode = ({ State.powerUp ⟨.runtime, .computed, 5, true⟩ with
      pending := [shiftCommand], results := [9] } : State).inst.shiftMode ∧
    runtimeState.pending = shiftCommand :: [scaleCommand] := by decide

theorem witness_CommandsAreIdempotent :
    ({ State.reset with pending := [scaleCommand, scaleCommand] } : State).pending =
      scaleCommand :: scaleCommand :: [] := rfl

theorem witness_NoOutputDependsOnTheHalfStrategy :
    runtimeState.pending = shiftCommand :: [scaleCommand] ∧ 1 ≤ maxShift 8 .signed ∧ 6 ≤ maxShift 8 .signed := by decide

theorem witness_InstancesShareNothing :
    (∃ sys, stepAt 1 [runtimeState, fixedState] = .next sys) ∧ (0 : Nat) ≠ 1 ∧
      [runtimeState, fixedState][1]? = some fixedState := ⟨⟨_, rfl⟩, by decide, rfl⟩

/-- The conditions inside the instruction rules, each at a boundary: a FIXED word of the other operation's opcode bit,
the largest shift, and products at and past the edge of the range. -/
theorem witness_UnsignedScaleInstructions :
    (1 ≤ 7 ∧ (0x008 : CommandWord).getLsbD 3 = decide (Op.rscale = .rscale)) ∧ (7 : ShiftField).toNat ≤ 7 ∧
      (51 : BitVec 8).toNat * (5 : BitVec 8).toNat < 2 ^ 8 := by decide
theorem witness_SignedScaleInstructions :
    (1 ≤ 6 ∧ (0x008 : CommandWord).getLsbD 3 = decide (Op.rscale = .rscale)) ∧ (6 : ShiftField).toNat ≤ 6 ∧
      -2 ^ (8 - 1) ≤ (-64 : BitVec 8).toInt * (2 : BitVec 8).toInt ∧
      (-64 : BitVec 8).toInt * (2 : BitVec 8).toInt ≤ 2 ^ (8 - 1) - 1 := by decide
theorem witness_UnsignedShiftInstructions :
    (1 ≤ 7 ∧ (0xFF7 : CommandWord).getLsbD 3 = decide (Op.rshift = .rscale)) ∧ (7 : ShiftField).toNat ≤ 7 := by decide
theorem witness_SignedShiftInstructions :
    (1 ≤ 6 ∧ (0xFF7 : CommandWord).getLsbD 3 = decide (Op.rshift = .rscale)) ∧ (6 : ShiftField).toNat ≤ 6 := by decide

theorem witness_IgnoredOperandBits :
    (0xA5A5A5A5A5A5A50A : Port).extractLsb' 0 8 = (ports 10 3).num.extractLsb' 0 8 ∧
      (0x5A5A5A5A5A5A5A03 : Port).extractLsb' 0 8 = (ports 10 3).mul.extractLsb' 0 8 := by decide

theorem witness_OutOfRangeShiftGivesTheSentinel :
    maxShift 8 .unsigned < (8 : ShiftField).toNat ∧ maxShift 8 .signed < (7 : ShiftField).toNat ∧
      maxShift 64 .signed < (63 : ShiftField).toNat ∧ maxShift 64 .unsigned < (64 : ShiftField).toNat := by decide

theorem witness_ZeroShiftGivesTheProduct :
    (Instr.rscaleU8 0).shift = 0 ∧ (Instr.rshiftI64 0).shift = 0 ∧ (Instr.rshiftI64 0).op = .rshift := by decide

theorem witness_HalfBitTableContents : 1 ≤ 63 ∧ 63 ≤ Width.w64.bits - 1 ∧ 1 ≤ Width.w8.bits - 1 := by decide

/-- The least and the largest shift of each signedness that half is used at, and the two it is not. -/
theorem witness_BothHalfStrategiesGiveTheHalfBit :
    1 ≤ maxShift 8 .unsigned ∧ 7 ≤ maxShift 8 .unsigned ∧ 62 ≤ maxShift 64 .signed ∧ maxShift 64 .signed < 63 := by
  decide

/-- The shifts of the detector's and the increment's statements. -/
theorem witness_LowBitsAreTheRemainder : 1 ≤ 1 ∧ 1 ≤ maxShift 8 .signed ∧ 63 ≤ maxShift 64 .unsigned := by decide
theorem witness_BitLevelDetectorAgrees : (1 ≤ 1 ∧ 1 ≤ maxShift 8 .signed) ∧ 1 ≤ 6 ∧ 6 ≤ maxShift 8 .signed := by decide
theorem witness_IncrementNeverWraps : 1 ≤ 1 ∧ 1 ≤ maxShift 8 .unsigned ∧ 7 ≤ maxShift 8 .unsigned := by decide

/-- Shift 1 of 3 is a tie, and of 2 and shift 2 of 7 are none: the detector on both sides. -/
theorem witness_DetectorFindsExactTies :
    (1 ≤ 1 ∧ 1 ≤ maxShift 8 .signed ∧
      detectGe (lowBits (3 : BitVec 8) 1) 1 = true ∧ detectGt (lowBits (3 : BitVec 8) 1) 1 = false) ∧
    detectGe (lowBits (2 : BitVec 8) 1) 1 = false ∧ detectGt (lowBits (7 : BitVec 8) 2) 2 = true := by decide

theorem witness_SignAndRoundUpDecision :
    0 ≤ (0 : BitVec 8).toInt ∧ (0xFF : BitVec 8).toInt < 0 ∧ (0x80 : BitVec 8).toInt < 0 := by decide

theorem witness_FixedInstanceAlwaysRounds :
    fixedState.inst.shiftMode = .fixed .w16 .signed 4 ∧ legalMode (.fixed .w16 .signed 4) = true ∧
      fixedState.pending = ⟨0xFF8, 24, 40⟩ :: [] := by decide

theorem witness_FixedInstanceEqualsRuntime :
    fixedState.inst.shiftMode = .fixed .w16 .signed 4 ∧ State.reset.inst.shiftMode = .runtime ∧
      legalMode (.fixed .w16 .signed 4) = true ∧ fixedState.pending = ⟨0xFF8, 24, 40⟩ :: [] ∧
      ({ State.reset with pending := [scaleCommand] } : State).pending = scaleCommand :: [] ∧
      scaleCommand.num = 24 ∧ scaleCommand.mul = 40 ∧
      scaleCommand.cmd = encode (makeInstr (if (0xFF8 : CommandWord).getLsbD 3 then .rscale else .rshift) .signed .w16
        (BitVec.ofNat 8 4)) := by decide

theorem witness_WorkingValueIsRoundedExactly :
    (1 ≤ (Instr.rscaleI8 6).shift.toNat ∧ (Instr.rscaleI8 6).shift.toNat ≤ maxShift 8 .signed) ∧
      1 ≤ (Instr.rshiftU64 1).shift.toNat ∧ (Instr.rshiftU64 1).shift.toNat ≤ maxShift 64 .unsigned := by decide

/-- A product that fits exactly, one that does not, a zero shift and an RSHIFT. -/
theorem witness_OperandsAreRoundedExactly :
    (Instr.rscaleI8 6).shift.toNat ≤ maxShift 8 .signed ∧
      arithmeticOverflow (.rscaleI8 6) 0xFFFFFFFFFFFFFFC0 2 = false ∧
      arithmeticOverflow (.rscaleI8 0) 0xFFFFFFFFFFFFFF80 0xFFFFFFFFFFFFFFFF = true ∧
      (Instr.rscaleI8 0).shift = 0 ∧ (Instr.rshiftI8 6).op = .rshift := by decide

theorem witness_ConditionsGovernTheResult :
    governingCondition (.rscaleI8 7) 127 127 = .invalidShift ∧
      governingCondition (.rscaleI8 6) 127 2 = .arithmeticOverflow ∧
      governingCondition (.rscaleI8 6) 127 1 = .none ∧ governingCondition (.rshiftU8 7) 255 0 = .none := by decide

theorem witness_InvalidShiftGovernsOverOverflow :
    invalidShift (.rscaleI8 7) = true ∧ arithmeticOverflow (.rscaleI8 7) 127 127 = true := by decide

theorem witness_OverflowIsTheProductLeavingTheWidth :
    arithmeticOverflow (.rscaleU8 0) 255 2 = true ∧ arithmeticOverflow (.rscaleU8 0) 51 5 = false ∧
      (Instr.rshiftU8 0).op = .rshift := by decide

theorem witness_ShiftIsScaleByOne :
    (6 : ShiftField).toNat ≤ maxShift 8 .signed ∧ (63 : ShiftField).toNat ≤ maxShift 64 .unsigned := by decide

/-- Operands in order, a valid shift and an invalid one. -/
theorem witness_ShiftIsMonotone :
    val .signed (operandA 8 (ports 0xFFFFFFFFFFFFFF80 0).num) ≤ val .signed (operandA 8 (ports 127 0).num) ∧
      (6 : ShiftField).toNat ≤ maxShift 8 .signed ∧ maxShift 8 .signed < (7 : ShiftField).toNat := by decide

theorem witness_ShiftResultRange :
    (1 ≤ (6 : ShiftField).toNat ∧ (6 : ShiftField).toNat ≤ maxShift 8 .signed ∧ (6 : ShiftField).toNat = 8 - 2) ∧
      1 ≤ (7 : ShiftField).toNat ∧ (7 : ShiftField).toNat ≤ maxShift 8 .unsigned := by decide

theorem witness_AssembledLineBecomesItsInstruction :
    legalMode .runtime = true ∧ legalMode (.fixed .w16 .signed 4) = true ∧
      assembleLine .runtime ⟨.rshift, .signed, .w16, [.dec (-24), .dec 4]⟩ =
        .ok ⟨0x045, 0xFFFFFFFFFFFFFFE8, 0⟩ ∧
      assembleLine .runtime ⟨.rscale, .signed, .w16, [.dec 24, .dec 40, .dec 4]⟩ = .ok scaleCommand ∧
      assembleLine (.fixed .w16 .signed 4) ⟨.rscale, .signed, .w16, [.dec 24, .dec 40]⟩ =
        .ok scaleCommand := by decide

theorem witness_AssemblerTakesLiteralsInRange :
    literalPort .signed 8 (.dec (-128)) = .ok 0xFFFFFFFFFFFFFF80 ∧ literalPort .unsigned 8 (.dec 255) = .ok 255 := by
  decide

/-- An instance of LATENCY 2 that latches its inputs, and one of LATENCY 1 whose host holds them. -/
theorem witness_ClockedBlockCompletesInOrder :
    legalMode (Timed.powerUp fixedState.inst).inst.shiftMode = true ∧
      (Timed.powerUp fixedState.inst).inst.inputLatched = true ∧
      0 + 2 < [shiftCommand, scaleCommand, shiftCommand].length ∧
      [shiftCommand, scaleCommand, shiftCommand][0]? = some shiftCommand := by decide
theorem witness_ClockedBlockCompletesInOrder_held :
    1 + 1 < [shiftCommand, scaleCommand, scaleCommand].length ∧
      ∀ i, 1 ≤ i → i ≤ 1 + 1 → [shiftCommand, scaleCommand, scaleCommand][i]? = some scaleCommand := by
  refine ⟨by decide, fun i h1 h2 => ?_⟩
  obtain rfl | rfl : i = 1 ∨ i = 2 := by omega
  · rfl
  · rfl

theorem witness_ResetLosesCommandsInFlight :
    [shiftCommand, scaleCommand].length ≤ (Timed.powerUp fixedState.inst).inst.latency ∧
      (Timed.powerUp fixedState.inst).draws =
        ((Timed.powerUp fixedState.inst).cycle (.drive shiftCommand)).draws - 1 := by decide

/-! ### Clock cycles -/

/-- LATENCY 2, inputs latched: rscale.i16 24, 40, 4 stands on `result` after two more cycles, -24/16 = -1.5 next. -/
theorem test_clocked_in_order :
    ((Timed.powerUp fixedState.inst).cycles
      [.drive scaleCommand, .drive shiftCommand, .drive scaleCommand]).result = 0x3C ∧
    ((Timed.powerUp fixedState.inst).cycles
      [.drive scaleCommand, .drive shiftCommand, .drive scaleCommand, .drive scaleCommand]).result =
        0xFFFFFFFFFFFFFFFE := by decide

end Sys2Proof.Tests
end

section
/-!
PROOFS. 00_scope.md: what elaboration accepts (R9), the half-bit strategies (R10) and the configuration string (R2).
-/

namespace Sys2Proof.Machine

/-! ### Elaboration -/

/-- A number is accepted as FIXED_WIDTH exactly when it is a working width's (00_scope.md R7). -/
theorem widthOfBits_eq_some_iff (n : Int) (w : Width) : widthOfBits n = some w ↔ n = (w.bits : Int) := by
  constructor
  · intro h
    unfold widthOfBits at h
    split_ifs at h with h8 h16 h32 h64 <;> cases h <;> assumption
  · rintro rfl
    cases w <;> rfl

/-- Everything the check of FIXED parameters accepts, and the mode it gives (00_scope.md R9). -/
theorem elaborateMode_fixed_eq_ok_iff (width : Int) (g : Signedness) (shift : Int) (m : ShiftMode) :
    elaborateMode (.fixed width g shift) = .ok m ↔
      ∃ w : Width, width = (w.bits : Int) ∧ (1 ≤ shift ∧ shift ≤ (maxShift w.bits g : Int)) ∧
        m = .fixed w g shift.toNat := by
  simp only [← widthOfBits_eq_some_iff]
  simp only [elaborateMode]
  cases widthOfBits width with
  | none => simp
  | some w =>
    by_cases hs : 1 ≤ shift ∧ shift ≤ (maxShift w.bits g : Int)
    · simp [hs, eq_comm]
    · simp [hs]

/-- A request elaborates when its mode is accepted, to the state after power-up (40_datapath.md R86). -/
theorem elaborate_eq_ok_iff (q : Request) (s : State) :
    elaborate q = .ok s ↔
      ∃ m, elaborateMode q.mode = .ok m ∧
        s = State.powerUp ⟨m, q.halfStrategy, q.latency, q.inputLatched⟩ := by
  unfold elaborate
  cases elaborateMode q.mode with
  | error e => simp
  | ok m => simp [eq_comm]

/-- Settles O4: the accepted modes are read off the check, and power-up keeps the mode. -/
theorem elaborationAcceptsExactlyTheLegalParameters :
    Obligations.ElaborationAcceptsExactlyTheLegalParameters := by
  unfold Obligations.ElaborationAcceptsExactlyTheLegalParameters
  simp only [elaborate_eq_ok_iff, elaborateMode_fixed_eq_ok_iff]
  refine ⟨fun width g shift h l il => ⟨?_, ?_⟩, ?_, fun h l il => ⟨_, ⟨.runtime, rfl, rfl⟩, rfl⟩⟩
  · rintro ⟨_, _, ⟨w, hw, hs, _⟩, _⟩
    exact ⟨w, hw, hs⟩
  · rintro ⟨w, hw, hs⟩
    exact ⟨_, _, ⟨w, hw, hs, rfl⟩, rfl⟩
  · rintro width g shift h l il _ ⟨_, ⟨w, hw, _, rfl⟩, rfl⟩
    exact ⟨w, hw, rfl⟩

/-! ### The half-bit weight and the step -/

/-- A table entry is the half-bit weight (10_state.md R30). -/
theorem tableHalf_eq_ofNat {n s : Nat} (h1 : 1 ≤ s) (hn : s ≤ n - 1) : tableHalf n s = BitVec.ofNat n (2 ^ (s - 1)) := by
  have hlt : s - 1 < n - 1 := by omega
  simp [tableHalf, halfTable, List.getD_eq_getElem?_getD, hlt]

/-- The shifter's output is the half-bit weight (40_datapath.md R76). -/
theorem computedHalf_eq_ofNat (n s : Nat) : computedHalf n s = BitVec.ofNat n (2 ^ (s - 1)) :=
  BitVec.eq_of_toNat_eq ((BitVec.toNat_twoPow n (s - 1)).trans (BitVec.toNat_ofNat _ _).symm)

/-- No signedness has a valid shift past the table's last entry (40_datapath.md R73). -/
theorem maxShift_le_pred (n : Nat) (g : Signedness) : maxShift n g ≤ n - 1 := by
  cases g with
  | unsigned => exact Nat.le_refl _
  | signed => exact Nat.sub_le_sub_left (by decide) n

/-- At a valid shift from 1 the table strategy reads the table (40_datapath.md R76). -/
theorem halfWeight_table {n s : Nat} {g : Signedness} (hs : 1 ≤ s ∧ s ≤ maxShift n g) :
    halfWeight .table n g s = tableHalf n s :=
  if_pos hs

/-- At a valid shift from 1 the computed strategy shifts (40_datapath.md R76). -/
theorem halfWeight_computed {n s : Nat} {g : Signedness} (hs : 1 ≤ s ∧ s ≤ maxShift n g) :
    halfWeight .computed n g s = computedHalf n s :=
  if_pos hs

/-- Both strategies give the half-bit weight at a valid shift from 1 (40_datapath.md R76). -/
theorem halfWeight_eq_ofNat (h : HalfStrategy) {n s : Nat} {g : Signedness} (hs : 1 ≤ s ∧ s ≤ maxShift n g) :
    halfWeight h n g s = BitVec.ofNat n (2 ^ (s - 1)) := by
  cases h with
  | table => exact (halfWeight_table hs).trans (tableHalf_eq_ofNat hs.1 (hs.2.trans (maxShift_le_pred n g)))
  | computed => exact (halfWeight_computed hs).trans (computedHalf_eq_ofNat n s)

/-- Both strategies give 0 at every other shift, where the weight is not used (40_datapath.md R90). -/
theorem halfWeight_eq_zero (h : HalfStrategy) {n s : Nat} {g : Signedness} (hs : ¬(1 ≤ s ∧ s ≤ maxShift n g)) :
    halfWeight h n g s = 0#n :=
  if_neg hs

/-- Both strategies produce one weight at every shift, valid or not (00_scope.md R10). -/
theorem halfWeight_strategy_irrelevant (h h' : HalfStrategy) : halfWeight h = halfWeight h' := by
  funext n g s
  by_cases hs : 1 ≤ s ∧ s ≤ maxShift n g
  · rw [halfWeight_eq_ofNat h hs, halfWeight_eq_ofNat h' hs]
  · rw [halfWeight_eq_zero h hs, halfWeight_eq_zero h' hs]

/-- The datapath reads HALF_STRATEGY only through the half-bit weight. -/
theorem compute_strategy_irrelevant (h h' : HalfStrategy) : compute h = compute h' := by
  unfold compute scaled rounded
  rw [halfWeight_strategy_irrelevant h h']

/-- HALF_STRATEGY changes no command's result (00_scope.md R10). -/
theorem commandResult_withHalfStrategy (p : Params) (h : HalfStrategy) (c : Command) :
    commandResult { p with halfStrategy := h } c = commandResult p c := by
  unfold commandResult
  rw [compute_strategy_irrelevant h p.halfStrategy]

/-- A step with a command pending completes that command (10_state.md R33, 70_reset_and_hazards.md R167). -/
theorem step_eq_afterCommand {s : State} {c : Command} {rest : List Command} (hp : s.pending = c :: rest) :
    step s = .next (s.afterCommand c rest (commandResult s.inst c)) := by
  rw [step, fetch, hp]
  exact congrArg observed (exec_drives_commandResult s c rest)

/-- Settles O23: both steps complete the command, with one result since both strategies produce one weight. -/
theorem noOutputDependsOnTheHalfStrategy : Obligations.NoOutputDependsOnTheHalfStrategy := by
  unfold Obligations.NoOutputDependsOnTheHalfStrategy
  refine ⟨fun n g s h1 hM => ⟨halfWeight_table ⟨h1, hM⟩, halfWeight_computed ⟨h1, hM⟩⟩, ?_⟩
  intro s h c rest hp
  refine ⟨commandResult s.inst c, step_eq_afterCommand hp, ?_⟩
  rw [← commandResult_withHalfStrategy s.inst h c]
  exact step_eq_afterCommand hp

/-! ### The configuration string -/

/-- FIXED_WIDTH as the string writes it (00_scope.md R2). -/
def widthDigits (w : Width) : String :=
  match w with | .w8 => "8" | .w16 => "16" | .w32 => "32" | .w64 => "64"

/-- FIXED_SIGNED as the string writes it (00_scope.md R2). -/
def signLetter (g : Signedness) : String :=
  match g with | .unsigned => "U" | .signed => "I"

/-- `<HALF>` of the string (00_scope.md R2). -/
def halfName (h : HalfStrategy) : String :=
  match h with | .table => "TAB" | .computed => "CMP"

/-- `<HALF>` with the hyphen before it. -/
def halfSuffix (h : HalfStrategy) : String :=
  match h with | .table => "-TAB" | .computed => "-CMP"

theorem toString_bits (w : Width) : toString w.bits = widthDigits w := by
  cases w <;> rfl

theorem hyphen_append_halfName (h : HalfStrategy) : "-" ++ halfName h = halfSuffix h := by
  cases h <;> rfl

/-- The configuration string in SHIFT_MODE = RUNTIME (00_scope.md R2). -/
theorem configString_runtime (h : HalfStrategy) (l : Nat) (il : Bool) :
    configString ⟨.runtime, h, l, il⟩ = "FXRS-W8.16.32.64-SU-RT" ++ halfSuffix h := by
  cases h <;> rfl

/-- The configuration string in SHIFT_MODE = FIXED (00_scope.md R2). -/
theorem configString_fixed (w : Width) (g : Signedness) (k : Nat) (h : HalfStrategy) (l : Nat) (il : Bool) :
    configString ⟨.fixed w g k, h, l, il⟩ =
      "FXRS-W8.16.32.64-SU-FX" ++ widthDigits w ++ signLetter g ++ toString k ++ halfSuffix h := by
  have hstart : "FXRS-W8.16.32.64-SU-FX" = "FXRS-W8.16.32.64-SU-" ++ "FX" := rfl
  rw [hstart, ← toString_bits, ← hyphen_append_halfName]
  calc configString ⟨.fixed w g k, h, l, il⟩
    _ = "FXRS-W8.16.32.64-SU-" ++ ("FX" ++ toString w.bits ++ signLetter g ++ toString k) ++ "-" ++ halfName h := rfl
    _ = _ := by simp only [String.append_assoc]

/-- Settles O6: the two examples are computed, every other string is one of the two lemmas above. -/
theorem configurationStrings : Obligations.ConfigurationStrings := by
  unfold Obligations.ConfigurationStrings
  exact ⟨rfl, rfl, fun h l il => ⟨configString_runtime h l il, fun w g k => configString_fixed w g k h l il⟩⟩

end Sys2Proof.Machine
end

section
/-!
PROOFS. 30_encoding.md: the opcode map (R56), the fields of the command word (R51 to R54) and what a FIXED instance
decodes (R59).
-/

namespace Sys2Proof

/-! ### The fields of the command word -/

/-- Field `op` names RSCALE exactly when cmd[3] is 1 (30_encoding.md R53). -/
theorem opField_eq_rscale_iff (c : CommandWord) : opField c = .rscale ↔ c.getLsbD 3 = true := by
  simp [opField]

/-- Field `op` reads cmd[3] alone (30_encoding.md R53). -/
theorem opField_congr {c d : CommandWord} (h : c.getLsbD 3 = d.getLsbD 3) : opField c = opField d := by
  rw [opField, opField, h]

/-- Field `sgn` names the signedness that cmd[2] stands for (30_encoding.md R52). -/
theorem sgnField_eq_iff (c : CommandWord) (g : Signedness) :
    sgnField c = g ↔ c.getLsbD 2 = decide (g = .signed) := by
  cases g <;> simp [sgnField]

/-- Field `sgn` reads cmd[2] alone (30_encoding.md R52). -/
theorem sgnField_congr {c d : CommandWord} (h : c.getLsbD 2 = d.getLsbD 2) : sgnField c = sgnField d := by
  rw [sgnField, sgnField, h]

/-- Field `wsel` reads cmd[1:0] alone (30_encoding.md R51). -/
theorem widthField_congr {c d : CommandWord} (h1 : c.getLsbD 1 = d.getLsbD 1) (h0 : c.getLsbD 0 = d.getLsbD 0) :
    widthField c = widthField d := by
  rw [widthField, widthField, h1, h0]

/-- Field `wsel` selects `N = 8 << uint(wsel)` (30_encoding.md R51): of every word that agrees in cmd[1:0], the one
with 0 elsewhere is looked up. -/
theorem widthField_bits (c : CommandWord) : (widthField c).bits = 8 <<< (c.extractLsb' 0 2).toNat := by
  have hbits : ∀ wsel : BitVec 2, (widthField (wsel.setWidth 12)).bits = 8 <<< wsel.toNat := by decide
  rw [← hbits]
  exact congrArg Width.bits (widthField_congr (by simp) (by simp))

/-- No two working widths have the same number of bits (00_scope.md R7). -/
theorem width_bits_inj {v w : Width} : v.bits = w.bits ↔ v = w := by
  cases v <;> cases w <;> decide

/-- The width a word names, by the number of bits its field `wsel` selects (30_encoding.md R51). -/
theorem widthField_eq_iff (c : CommandWord) (w : Width) :
    widthField c = w ↔ 8 <<< (c.extractLsb' 0 2).toNat = w.bits := by
  rw [← width_bits_inj, widthField_bits]

@[simp] theorem decode_op (c : CommandWord) : (decode c).op = opField c := makeInstr_op _ _ _ _
@[simp] theorem decode_sgn (c : CommandWord) : (decode c).sgn = sgnField c := makeInstr_sgn _ _ _ _
@[simp] theorem decode_width (c : CommandWord) : (decode c).width = widthField c := makeInstr_width _ _ _ _
@[simp] theorem decode_shift (c : CommandWord) : (decode c).shift = shiftField c := makeInstr_shift _ _ _ _

/-- Settles O9: each part of the decoded instruction is its field of the word. -/
theorem fieldsSelectTheInstruction : Obligations.FieldsSelectTheInstruction := by
  unfold Obligations.FieldsSelectTheInstruction
  intro c
  rw [decode_width, decode_sgn, decode_op, decode_shift]
  exact ⟨widthField_bits c, sgnField_eq_iff c .signed, opField_eq_rscale_iff c, rfl⟩

/-! ### The opcode map -/

/-- The opcode alone fixes the operation, signedness and width, and the shift is carried over: the opcode may be looked
up beside shift 0 (30_encoding.md R56). -/
theorem decode_commandWord (k : ShiftField) (opcode : BitVec 4) :
    decode (commandWord k opcode) =
      makeInstr (opField (commandWord 0 opcode)) (sgnField (commandWord 0 opcode))
        (widthField (commandWord 0 opcode)) k := by
  have hbit : ∀ j < 4, (commandWord k opcode).getLsbD j = (commandWord 0 opcode).getLsbD j := fun j hj => by
    rw [commandWord_getLsbD hj, commandWord_getLsbD hj]
  rw [decode, shiftField_commandWord, opField_congr (hbit 3 (by decide)), sgnField_congr (hbit 2 (by decide)),
    widthField_congr (hbit 1 (by decide)) (hbit 0 (by decide))]

/-- The word of an instruction decodes to it: 16 opcodes looked up (30_encoding.md R56). -/
theorem decode_encode (i : Instr) : decode (encode i) = i := by
  cases i <;> exact decode_commandWord _ _

/-- Settles O8: the map's rows are the words `encode` writes, so each decodes back; their numbers are those of a shift
above an opcode. -/
theorem opcodeMapIsAsTabled : Obligations.OpcodeMapIsAsTabled := by
  unfold Obligations.OpcodeMapIsAsTabled
  refine ⟨fun k => ⟨?_, ?_, ?_, ?_⟩, fun i => ?_, by decide⟩
  · exact ⟨decode_encode (.rshiftU8 k), decode_encode (.rshiftU16 k), decode_encode (.rshiftU32 k),
      decode_encode (.rshiftU64 k)⟩
  · exact ⟨decode_encode (.rshiftI8 k), decode_encode (.rshiftI16 k), decode_encode (.rshiftI32 k),
      decode_encode (.rshiftI64 k)⟩
  · exact ⟨decode_encode (.rscaleU8 k), decode_encode (.rscaleU16 k), decode_encode (.rscaleU32 k),
      decode_encode (.rscaleU64 k)⟩
  · exact ⟨decode_encode (.rscaleI8 k), decode_encode (.rscaleI16 k), decode_encode (.rscaleI32 k),
      decode_encode (.rscaleI64 k)⟩
  · cases i <;> exact commandWord_toNat _ _

/-! ### FIXED instances -/

/-- A word that carries the FIXED signedness, width and shift means what it means in SHIFT_MODE = RUNTIME
(30_encoding.md R59). -/
theorem decodeFor_fixed_eq_decode {w : Width} {g : Signedness} {k : Nat} {c : CommandWord} (hg : sgnField c = g)
    (hw : widthField c = w) (hk : (shiftField c).toNat = k) : decodeFor (.fixed w g k) c = decode c := by
  subst hg hw hk
  rw [decodeFor, BitVec.ofNat_toNat, BitVec.setWidth_eq, decode]

/-- The instructions of a FIXED instance are those of its own width, signedness and shift (30_encoding.md R59). -/
theorem wellFormed_fixed_iff (w : Width) (g : Signedness) (k : Nat) (i : Instr) :
    WellFormed (.fixed w g k) i = true ↔ i.width = w ∧ i.sgn = g ∧ i.shift.toNat = k := by
  simp [WellFormed, and_assoc]

/-- Settles O12: only field `op` is read from the word; the other three are the instance's own values exactly when the
word carries them, and the words of its instructions do. -/
theorem fixedInstanceDecodesOnlyTheOperation : Obligations.FixedInstanceDecodesOnlyTheOperation := by
  unfold Obligations.FixedInstanceDecodesOnlyTheOperation
  intro w g k _
  refine ⟨fun c => rfl, fun c d h => ?_, fun c hg hw hk => ?_, fun i hi => ?_⟩
  · rw [decodeFor, decodeFor, opField_congr h]
  · exact decodeFor_fixed_eq_decode ((sgnField_eq_iff c g).2 hg) ((widthField_eq_iff c w).2 hw) hk
  · rw [← decode_encode i, wellFormed_fixed_iff, decode_width, decode_sgn, decode_shift, widthField_eq_iff,
      sgnField_eq_iff] at hi
    obtain ⟨hw, hg, hk⟩ := hi
    exact ⟨hg, hw, hk⟩

end Sys2Proof
end

section
/-!
PROOFS. 40_datapath.md: the stages of the datapath in the spec's exact arithmetic (R71 to R85), the rounding they make
together (R87, R88), and Exec (R89, R90).
-/

namespace Sys2Proof.Machine

/-! ### Vectors and their values -/

/-- A vector is the pattern of its own value, under either reading (00_scope.md R14). -/
theorem bitsOf_val {n : Nat} (g : Signedness) (v : BitVec n) : bitsOf n (val g v) = v := by
  cases g with
  | unsigned => exact (BitVec.ofInt_natCast n v.toNat).trans ((BitVec.ofNat_toNat n v).trans (BitVec.setWidth_eq v))
  | signed => exact BitVec.ofInt_toInt

/-- The value of an N-bit vector lies in its type's range (00_scope.md R14). -/
theorem val_mem_range {n : Nat} (g : Signedness) (v : BitVec n) :
    minValue g n ≤ val g v ∧ val g v ≤ maxValue g n := by
  cases g with
  | unsigned =>
    have hlt : (v.toNat : ℤ) < 2 ^ n := mod_cast v.isLt
    exact ⟨Int.natCast_nonneg _, Int.le_sub_one_of_lt hlt⟩
  | signed => exact ⟨v.le_toInt, BitVec.toInt_le⟩

/-- A number in the type's range is the value of its pattern (00_scope.md R14). -/
theorem val_bitsOf {n : Nat} {g : Signedness} {k : ℤ} (hn : 0 < n) (hmin : minValue g n ≤ k)
    (hmax : k ≤ maxValue g n) : val g (bitsOf n k) = k := by
  cases g with
  | unsigned =>
    have hlt : k < ((2 ^ n : Nat) : ℤ) := by push_cast; exact Int.lt_of_le_sub_one hmax
    rw [val, bitsOf, BitVec.toNat_ofInt, Int.emod_eq_of_lt hmin hlt]
    exact Int.toNat_of_nonneg hmin
  | signed =>
    have hpow : (2 : ℤ) * 2 ^ (n - 1) = 2 ^ n := by rw [← pow_succ', Nat.sub_add_cancel hn]
    simp only [minValue, maxValue] at hmin hmax
    rw [val, bitsOf, BitVec.toInt_ofInt]
    apply Int.bmod_eq_of_le_mul_two <;> push_cast <;> omega

/-- Modulo 2^s either reading of a vector is its low s bits (00_scope.md R14). -/
theorem val_emod_two_pow {n s : Nat} (g : Signedness) (v : BitVec n) (hs : s ≤ n) :
    val g v % 2 ^ s = ((v.toNat % 2 ^ s : Nat) : ℤ) := by
  cases g with
  | unsigned => simp [val]
  | signed =>
    have hdvd : (2 : ℤ) ^ s ∣ ((2 ^ n : Nat) : ℤ) := by push_cast; exact pow_dvd_pow 2 hs
    rw [val, BitVec.toInt_eq_toNat_bmod, ← Int.emod_emod_of_dvd _ hdvd, Int.bmod_emod, Int.emod_emod_of_dvd _ hdvd]
    push_cast
    rfl

/-! ### Operands and product -/

/-- Operand a is the low N bits of `num` (40_datapath.md R71). -/
theorem operandA_eq_extractLsb' (w : Width) (num : Port) : operandA w.bits num = num.extractLsb' 0 w.bits :=
  BitVec.setWidth_eq_extractLsb' (width_bits_le_port w)

/-- Operand b of RSCALE is the low N bits of `mul` (40_datapath.md R71). -/
theorem operandB_rscale_eq_extractLsb' (w : Width) (mul : Port) :
    operandB .rscale w.bits mul = mul.extractLsb' 0 w.bits :=
  BitVec.setWidth_eq_extractLsb' (width_bits_le_port w)

/-- Operand b of RSHIFT is the constant 1 (40_datapath.md R71). -/
theorem operandB_rshift (n : Nat) (mul : Port) : operandB .rshift n mul = bitsOf n 1 := rfl

/-- The product is the pattern of the exact product, under either reading (40_datapath.md R72). -/
theorem product_eq_bitsOf {n : Nat} (g : Signedness) (a b : BitVec n) :
    product a b = bitsOf n (val g a * val g b) := by
  rw [bitsOf, BitVec.ofInt_mul]
  exact (congrArg₂ (· * ·) (bitsOf_val g a) (bitsOf_val g b)).symm

/-- The product of RSHIFT is its operand (40_datapath.md R72). -/
theorem product_rshift {n : Nat} (a : BitVec n) (mul : Port) : product a (operandB .rshift n mul) = a :=
  BitVec.mul_one a

/-- Settles O31: one wrapped pattern under both readings. -/
theorem productWrapsAtTheWorkingWidth : Obligations.ProductWrapsAtTheWorkingWidth := by
  unfold Obligations.ProductWrapsAtTheWorkingWidth
  intro w a b num mul
  exact ⟨product_eq_bitsOf .unsigned a b, product_eq_bitsOf .signed a b, product_rshift _ mul⟩

/-! ### MaxShift -/

/-- Settles O32: the formula is the definition, and the table is computed. -/
theorem maxShiftIsAsTabled : Obligations.MaxShiftIsAsTabled := by
  unfold Obligations.MaxShiftIsAsTabled
  exact ⟨fun w => ⟨rfl, rfl⟩, by decide⟩

/-- A valid shift from 1 is below the number of bits (40_datapath.md R73). -/
theorem validShift_lt_bits {n s : Nat} {g : Signedness} (hs : 1 ≤ s ∧ s ≤ maxShift n g) : s < n := by
  have hle := maxShift_le_pred n g
  omega

/-! ### The half-bit weight and the discarded low bits -/

/-- Halving a power of two from 2 on. -/
theorem two_pow_eq_two_mul_pred {s : Nat} (h1 : 1 ≤ s) : 2 ^ s = 2 * 2 ^ (s - 1) := by
  rw [← pow_succ', Nat.sub_add_cancel h1]

/-- The pattern of a power of two (00_scope.md R14). -/
theorem bitsOf_two_pow (n k : Nat) : bitsOf n (2 ^ k) = BitVec.ofNat n (2 ^ k) := by
  rw [← BitVec.ofInt_natCast, Nat.cast_pow]
  rfl

/-- The mask of s low bits as a number (40_datapath.md R78). -/
theorem lowMask_toNat {n s : Nat} (hs : s ≤ n) : (bitsOf n (2 ^ s - 1)).toNat = 2 ^ s - 1 := by
  have hpow : 2 ^ s - 1 < 2 ^ n :=
    (Nat.sub_lt (Nat.two_pow_pos s) Nat.one_pos).trans_le (Nat.pow_le_pow_right (by decide) hs)
  have hcast : ((2 : ℤ) ^ s - 1) = ((2 ^ s - 1 : Nat) : ℤ) := by
    push_cast [Nat.one_le_two_pow]
    rfl
  rw [bitsOf, hcast, BitVec.ofInt_natCast, BitVec.toNat_ofNat, Nat.mod_eq_of_lt hpow]

/-- Masking with s low bits leaves the remainder by 2^s (40_datapath.md R78). -/
theorem and_lowMask_toNat {n s : Nat} (p : BitVec n) (hs : s ≤ n) :
    (p &&& bitsOf n (2 ^ s - 1)).toNat = p.toNat % 2 ^ s := by
  rw [BitVec.toNat_and, lowMask_toNat hs, Nat.and_two_pow_sub_one_eq_mod]

section ValidShift

variable {n s : Nat} {g : Signedness} (h : HalfStrategy) (p : BitVec n) (hs : 1 ≤ s ∧ s ≤ maxShift n g)
include hs

/-- The half-bit weight by its defining pattern (40_datapath.md R76). -/
theorem halfWeight_eq_bitsOf : halfWeight h n g s = bitsOf n (2 ^ (s - 1)) := by
  rw [bitsOf_two_pow, halfWeight_eq_ofNat h hs]

/-- The half-bit weight as a number (40_datapath.md R76). -/
theorem halfWeight_toNat : (halfWeight h n g s).toNat = 2 ^ (s - 1) := by
  have hlt := validShift_lt_bits hs
  rw [halfWeight_eq_ofNat h hs, BitVec.toNat_ofNat]
  exact Nat.mod_eq_of_lt (Nat.pow_lt_pow_right (by decide) (by omega))

/-- The half-bit weight is positive under the signed reading too (40_datapath.md R76). -/
theorem halfWeight_toInt : (halfWeight h n g s).toInt = 2 ^ (s - 1) := by
  have hlt : 2 * (halfWeight h n g s).toNat < 2 ^ n := by
    rw [halfWeight_toNat h hs, ← two_pow_eq_two_mul_pred hs.1]
    exact Nat.pow_lt_pow_right (by decide) (validShift_lt_bits hs)
  rw [BitVec.toInt_eq_toNat_of_lt hlt, halfWeight_toNat h hs]
  push_cast
  rfl

/-- Doubling the half-bit weight does not wrap (40_datapath.md R78). -/
theorem halfWeight_shiftLeft_toNat : (halfWeight h n g s <<< 1).toNat = 2 ^ s := by
  rw [BitVec.toNat_shiftLeft, halfWeight_toNat h hs, Nat.shiftLeft_eq, ← pow_succ, Nat.sub_add_cancel hs.1]
  exact Nat.mod_eq_of_lt (Nat.pow_lt_pow_right (by decide) (validShift_lt_bits hs))

/-- The low bits are p under the mask of s bits (40_datapath.md R78). -/
theorem lowBits_eq_and_lowMask : lowBits p (halfWeight h n g s) = p &&& bitsOf n (2 ^ s - 1) := by
  have hlt := validShift_lt_bits hs
  have hdouble := halfWeight_shiftLeft_toNat h hs
  have hone : (1#n).toNat = 1 := BitVec.toNat_one (by omega)
  refine congrArg (p &&& ·) (BitVec.eq_of_toNat_eq ?_)
  rw [lowMask_toNat hlt.le, BitVec.toNat_sub_of_le, hdouble, hone]
  rw [BitVec.le_def, hdouble, hone]
  exact Nat.one_le_two_pow

/-- The low bits as a number (40_datapath.md R78). -/
theorem lowBits_toNat : (lowBits p (halfWeight h n g s)).toNat = p.toNat % 2 ^ s := by
  rw [lowBits_eq_and_lowMask h p hs, and_lowMask_toNat p (validShift_lt_bits hs).le]

/-- The low bits are bits s-1 to 0 of p (40_datapath.md R78). -/
theorem lowBits_eq_setWidth : lowBits p (halfWeight h n g s) = (p.extractLsb' 0 s).setWidth n := by
  have hlt : p.toNat % 2 ^ s < 2 ^ n := (Nat.mod_le _ _).trans_lt p.isLt
  apply BitVec.eq_of_toNat_eq
  rw [lowBits_toNat h p hs, BitVec.toNat_setWidth, BitVec.extractLsb'_toNat, Nat.shiftRight_zero,
    Nat.mod_eq_of_lt hlt]

end ValidShift

/-- Settles O36: both strategies give the half-bit weight, and 0 where it is not used. -/
theorem bothHalfStrategiesGiveTheHalfBit : Obligations.BothHalfStrategiesGiveTheHalfBit := by
  unfold Obligations.BothHalfStrategiesGiveTheHalfBit
  intro w g s
  rw [bitsOf_two_pow]
  refine ⟨fun h1 hM => ?_, fun hout h => halfWeight_eq_zero h (by omega)⟩
  have hs := And.intro h1 hM
  exact ⟨tableHalf_eq_ofNat h1 (hM.trans (maxShift_le_pred _ g)), computedHalf_eq_ofNat _ s,
    fun h => ⟨halfWeight_eq_ofNat h hs, halfWeight_toNat h hs, halfWeight_toInt h hs⟩⟩

/-! ### The shift stage -/

/-- The shift stage divides, rounding down (40_datapath.md R77). -/
theorem val_truncated {n : Nat} (g : Signedness) (p : BitVec n) (s : Nat) :
    val g (truncated g p s) = val g p / 2 ^ s := by
  cases g with
  | unsigned => simp [val, truncated, Nat.shiftRight_eq_div_pow]
  | signed => simp [val, truncated, BitVec.toInt_sshiftRight, Int.shiftRight_eq_div_pow]

/-- The shift stage by the defining equation of its operator (40_datapath.md R77, 00_scope.md R15). -/
theorem truncated_eq_bitsOf {n : Nat} (g : Signedness) (p : BitVec n) (s : Nat) :
    truncated g p s = bitsOf n ((val g p).fdiv (2 ^ s)) := by
  rw [Int.fdiv_eq_ediv_of_nonneg _ (by positivity), ← val_truncated, bitsOf_val]

/-- The shift stage gives the floor of the exact quotient (40_datapath.md R77). -/
theorem val_truncated_eq_floor {n : Nat} (g : Signedness) (p : BitVec n) (s : Nat) :
    val g (truncated g p s) = ⌊(val g p : ℚ) / 2 ^ s⌋ := by
  have hfloor := Rat.floor_intCast_div_natCast (val g p) (2 ^ s)
  push_cast at hfloor
  rw [hfloor, val_truncated]

/-- Settles O37: the operators' defining equations, and the floor. -/
theorem shiftStageGivesTheFloor : Obligations.ShiftStageGivesTheFloor := by
  unfold Obligations.ShiftStageGivesTheFloor
  intro w p s
  exact ⟨⟨truncated_eq_bitsOf .signed p s, truncated_eq_bitsOf .unsigned p s⟩,
    fun g => val_truncated_eq_floor g p s⟩

/-- Settles O38: the mask is that of the s low bits, and they are the remainder under both readings. -/
theorem lowBitsAreTheRemainder : Obligations.LowBitsAreTheRemainder := by
  unfold Obligations.LowBitsAreTheRemainder
  intro w g h p s h1 hM
  have hs := And.intro h1 hM
  refine ⟨halfWeight_shiftLeft_toNat h hs, lowBits_eq_and_lowMask h p hs, lowBits_eq_setWidth h p hs,
    lowBits_toNat h p hs, ?_⟩
  rw [lowBits_toNat h p hs, val_truncated, ← val_emod_two_pow g p (validShift_lt_bits hs).le]
  exact (Int.ediv_mul_add_emod _ _).symm

/-! ### The detector -/

/-- The fraction that the shift discards is the low bits over 2^s (40_datapath.md R78). -/
theorem fract_val_div {n s : Nat} (g : Signedness) (p : BitVec n) (hs : s ≤ n) :
    Int.fract ((val g p : ℚ) / 2 ^ s) = (p.toNat % 2 ^ s : Nat) / 2 ^ s := by
  have hfract := Int.fract_div_intCast_eq_div_intCast_mod (k := ℚ) (m := val g p) (n := 2 ^ s)
  push_cast at hfract
  rw [hfract, val_emod_two_pow g p hs]
  rfl

/-- One half as a fraction over 2^s. -/
theorem one_half_eq_div_two_pow {s : Nat} (h1 : 1 ≤ s) : (1 / 2 : ℚ) = (2 ^ (s - 1) : Nat) / 2 ^ s := by
  obtain ⟨k, rfl⟩ := Nat.exists_eq_add_of_le' h1
  rw [Nat.add_sub_cancel]
  push_cast
  field_simp
  ring

/-- The low k + 1 bits of a number are its bit k above its low k bits. -/
theorem mod_two_pow_succ_eq (x k : Nat) : x % 2 ^ (k + 1) = x % 2 ^ k + if x.testBit k then 2 ^ k else 0 := by
  rw [Nat.mod_pow_succ, Nat.testBit_eq_decide_div_mod_eq]
  rcases Nat.mod_two_eq_zero_or_one (x / 2 ^ k) with hbit | hbit
  · simp [hbit]
  · simp [hbit]

/-- A number has its low k + 1 bits at 2^k or more exactly when bit k is set. -/
theorem two_pow_le_mod_iff_testBit (x k : Nat) : 2 ^ k ≤ x % 2 ^ (k + 1) ↔ x.testBit k = true := by
  have hlt : x % 2 ^ k < 2 ^ k := Nat.mod_lt _ (Nat.two_pow_pos k)
  rw [mod_two_pow_succ_eq]
  split_ifs with hbit
  · simp [hbit]
  · simp [hbit, hlt]

/-- A number has its low k + 1 bits above 2^k exactly when bit k is set and some bit below it is. -/
theorem two_pow_lt_mod_iff_testBit (x k : Nat) :
    2 ^ k < x % 2 ^ (k + 1) ↔ x.testBit k = true ∧ x % 2 ^ k ≠ 0 := by
  have hlt : x % 2 ^ k < 2 ^ k := Nat.mod_lt _ (Nat.two_pow_pos k)
  rw [mod_two_pow_succ_eq]
  split_ifs with hbit
  · simp [hbit, Nat.pos_iff_ne_zero]
  · simp [hbit, hlt.le]

section ValidShift

variable {n s : Nat} {g : Signedness} (h : HalfStrategy) (p : BitVec n) (hs : 1 ≤ s ∧ s ≤ maxShift n g)
include hs

/-- `ge` says that the discarded fraction is at least one half (40_datapath.md R79). -/
theorem detectGe_eq_fract : detectGe (lowBits p (halfWeight h n g s)) (halfWeight h n g s) =
    decide (1 / 2 ≤ Int.fract ((val g p : ℚ) / 2 ^ s)) := by
  rw [detectGe, lowBits_toNat h p hs, halfWeight_toNat h hs, fract_val_div g p (validShift_lt_bits hs).le,
    one_half_eq_div_two_pow hs.1]
  exact decide_eq_decide.2 ((div_le_div_iff_of_pos_right (by positivity)).trans Nat.cast_le).symm

/-- `gt` says that the discarded fraction exceeds one half (40_datapath.md R79). -/
theorem detectGt_eq_fract : detectGt (lowBits p (halfWeight h n g s)) (halfWeight h n g s) =
    decide (1 / 2 < Int.fract ((val g p : ℚ) / 2 ^ s)) := by
  rw [detectGt, lowBits_toNat h p hs, halfWeight_toNat h hs, fract_val_div g p (validShift_lt_bits hs).le,
    one_half_eq_div_two_pow hs.1]
  exact decide_eq_decide.2 ((div_lt_div_iff_of_pos_right (by positivity)).trans Nat.cast_lt).symm

/-- `ge` is bit s-1 of p (40_datapath.md R80). -/
theorem detectGe_eq_bitGe : detectGe (lowBits p (halfWeight h n g s)) (halfWeight h n g s) = bitGe p s := by
  rw [detectGe, lowBits_toNat h p hs, halfWeight_toNat h hs, bitGe, ← BitVec.testBit_toNat, Bool.eq_iff_iff,
    decide_eq_true_iff, ← two_pow_le_mod_iff_testBit, Nat.sub_add_cancel hs.1]

/-- `gt` is bit s-1 of p, some bit below it being set (40_datapath.md R80). -/
theorem detectGt_eq_bitGt : detectGt (lowBits p (halfWeight h n g s)) (halfWeight h n g s) = bitGt p s := by
  have hlow : p.extractLsb' 0 (s - 1) ≠ 0 ↔ p.toNat % 2 ^ (s - 1) ≠ 0 := by
    rw [Ne, ← BitVec.toNat_inj, BitVec.extractLsb'_toNat, Nat.shiftRight_zero]
    rfl
  have hgt := two_pow_lt_mod_iff_testBit p.toNat (s - 1)
  rw [Nat.sub_add_cancel hs.1] at hgt
  rw [detectGt, lowBits_toNat h p hs, halfWeight_toNat h hs, bitGt, ← BitVec.testBit_toNat, Bool.eq_iff_iff,
    decide_eq_true_iff, hgt, Bool.and_eq_true, Bool.and_eq_true, decide_eq_true_iff, decide_eq_true_iff, hlow]
  refine and_congr_right fun _ => ⟨fun hne => ⟨?_, hne⟩, And.right⟩
  by_contra hlt
  obtain rfl : s = 1 := by omega
  exact hne (Nat.mod_one _)

end ValidShift

/-- At shift 1 no bit lies below bit s-1 (40_datapath.md R80). -/
theorem bitGt_one {n : Nat} (p : BitVec n) : bitGt p 1 = false := Bool.and_false _

/-- Settles O39: the comparisons are the definitions, and between them the fraction is one half. -/
theorem detectorFindsExactTies : Obligations.DetectorFindsExactTies := by
  unfold Obligations.DetectorFindsExactTies
  intro w g h p s h1 hM
  have hs := And.intro h1 hM
  refine ⟨decide_eq_true_iff, decide_eq_true_iff, ?_⟩
  rw [detectGe_eq_fract h p hs, detectGt_eq_fract h p hs, decide_eq_true_iff, decide_eq_false_iff_not, not_lt,
    ← sub_eq_iff_eq_add', Int.self_sub_floor, eq_comm]
  exact le_antisymm_iff.symm

/-- Settles O40: each comparison is its bit-level form. -/
theorem bitLevelDetectorAgrees : Obligations.BitLevelDetectorAgrees := by
  unfold Obligations.BitLevelDetectorAgrees
  intro w g h p s h1 hM
  have hs := And.intro h1 hM
  refine ⟨detectGe_eq_bitGe h p hs, detectGt_eq_bitGt h p hs, rfl, ?_⟩
  rintro rfl
  exact bitGt_one p

/-! ### The sign and the increment -/

/-- The sign detect is the sign of the value (40_datapath.md R81). -/
theorem negative_eq_decide {n : Nat} (g : Signedness) (p : BitVec n) : negative g p = decide (val g p < 0) := by
  cases g with
  | unsigned => exact (decide_eq_false (Int.natCast_nonneg _).not_gt).symm
  | signed => rw [negative, ← BitVec.msb_eq_getLsbD_last, BitVec.msb_eq_toInt, val]

/-- Settles O41: the sign is that of the value, and it selects between the two comparisons. -/
theorem signAndRoundUpDecision : Obligations.SignAndRoundUpDecision := by
  unfold Obligations.SignAndRoundUpDecision
  intro w p ge gt
  have hneg : negative .signed p = decide (p.toInt < 0) := negative_eq_decide .signed p
  refine ⟨⟨by rw [hneg, decide_eq_true_iff], rfl, rfl⟩, rfl, fun hnn => ?_, fun hlt => ?_⟩
  · rw [hneg, decide_eq_false hnn.not_gt]
    rfl
  · rw [hneg, decide_eq_true hlt]
    rfl

/-- The increment adds to the value, modulo 2^N (40_datapath.md R83). -/
theorem increment_eq_bitsOf {n : Nat} (g : Signedness) (t : BitVec n) (inc : Bool) :
    increment t inc = bitsOf n (val g t + if inc then 1 else 0) := by
  have hinc : (BitVec.ofBool inc).setWidth n = bitsOf n (if inc then 1 else 0) := by
    cases inc with
    | false => exact BitVec.setWidth_zero n 1
    | true => exact BitVec.eq_of_toNat_eq (by simp [bitsOf])
  rw [bitsOf, BitVec.ofInt_add, ← bitsOf, ← bitsOf, bitsOf_val, ← hinc, increment]

/-- Every type of two bits or more has the value 1. -/
theorem one_le_maxValue {n : Nat} (g : Signedness) (hn : 2 ≤ n) : 1 ≤ maxValue g n := by
  have hpow : (2 : ℤ) ≤ 2 ^ (n - 1) := le_self_pow₀ (by decide) (by omega)
  have hmono : (2 : ℤ) ^ (n - 1) ≤ 2 ^ n := pow_le_pow_right₀ (by decide) (Nat.sub_le n 1)
  cases g with
  | unsigned => exact Int.le_sub_one_of_lt (by omega)
  | signed => exact Int.le_sub_one_of_lt (by omega)

/-- Halving once or more leaves room for the increment (40_datapath.md R83). -/
theorem val_truncated_lt_maxValue {n s : Nat} {g : Signedness} (p : BitVec n) (hs : 1 ≤ s ∧ s ≤ maxShift n g) :
    val g (truncated g p s) < maxValue g n := by
  have hn := validShift_lt_bits hs
  have hone : 1 ≤ maxValue g n := one_le_maxValue g (by omega)
  have hpow : (2 : ℤ) ≤ 2 ^ s := le_self_pow₀ (by decide) (by omega)
  rw [val_truncated]
  apply Int.ediv_lt_of_lt_mul (by positivity)
  calc val g p
    _ ≤ maxValue g n := (val_mem_range g p).2
    _ < maxValue g n * 2 := by omega
    _ ≤ maxValue g n * 2 ^ s := Int.mul_le_mul_of_nonneg_left hpow (by omega)

/-- The rounding increment never wraps (40_datapath.md R83). -/
theorem val_increment_truncated {n s : Nat} {g : Signedness} (p : BitVec n) (inc : Bool)
    (hs : 1 ≤ s ∧ s ≤ maxShift n g) :
    val g (increment (truncated g p s) inc) = val g (truncated g p s) + if inc then 1 else 0 := by
  have hlt := val_truncated_lt_maxValue p hs
  have hmin := (val_mem_range g (truncated g p s)).1
  have hn := validShift_lt_bits hs
  rw [increment_eq_bitsOf g]
  apply val_bitsOf (by omega)
  · split <;> omega
  · split <;> omega

/-- Settles O42: the sum as a pattern, and its exact value. -/
theorem incrementNeverWraps : Obligations.IncrementNeverWraps := by
  unfold Obligations.IncrementNeverWraps
  intro w g p s inc h1 hM
  exact ⟨increment_eq_bitsOf .unsigned _ inc, val_increment_truncated p inc ⟨h1, hM⟩⟩

/-! ### Selection and port -/

/-- An invalid shift gives the sentinel (40_datapath.md R74). -/
theorem scaled_of_invalid {n s : Nat} {g : Signedness} (h : HalfStrategy) (p : BitVec n) (hs : maxShift n g < s) :
    scaled h g p s = 0#n := by
  have hinvalid : shiftValid n g s = false := decide_eq_false hs.not_ge
  rw [scaled, hinvalid, selectResult_invalid]

/-- A zero shift gives p (40_datapath.md R75). -/
theorem scaled_zero {n : Nat} (h : HalfStrategy) (g : Signedness) (p : BitVec n) : scaled h g p 0 = p := by
  rw [scaled, (shiftValid_iff n g 0).2 (Nat.zero_le _), selectResult_zero]

/-- A valid shift from 1 gives the rounded value (40_datapath.md R84). -/
theorem scaled_of_valid {n s : Nat} {g : Signedness} (h : HalfStrategy) (p : BitVec n)
    (hs : 1 ≤ s ∧ s ≤ maxShift n g) : scaled h g p s = rounded h g p s := by
  rw [scaled, (shiftValid_iff n g s).2 hs.2, selectResult_rounded (by omega)]

/-- Settles O43: the range check decides first, then the zero shift. -/
theorem resultSelectionByPriority : Obligations.ResultSelectionByPriority := by
  unfold Obligations.ResultSelectionByPriority
  intro w g h p s
  split_ifs with hinvalid hzero
  · exact scaled_of_invalid h p hinvalid
  · rw [hzero, scaled_zero]
  · exact scaled_of_valid h p (by omega)

/-- Extending to the port keeps the value (40_datapath.md R85). -/
theorem val_extendResult {n : Nat} (hn : n ≤ 64) (g : Signedness) (r : BitVec n) :
    val g (extendResult g r) = val g r := by
  cases g with
  | unsigned =>
    have hlt : r.toNat < 2 ^ 64 := r.isLt.trans_le (Nat.pow_le_pow_right (by decide) hn)
    rw [val, val, extendResult, BitVec.toNat_setWidth, Nat.mod_eq_of_lt hlt]
  | signed => exact BitVec.toInt_signExtend_of_le hn

/-- The port is the 64-bit pattern of the result's value (40_datapath.md R85). -/
theorem extendResult_eq_bitsOf {n : Nat} (hn : n ≤ 64) (g : Signedness) (r : BitVec n) :
    extendResult g r = bitsOf 64 (val g r) := by
  rw [← val_extendResult hn, bitsOf_val]

/-- The low bits of the port are the result (40_datapath.md R85). -/
theorem extendResult_extractLsb' {n : Nat} (hn : n ≤ 64) (g : Signedness) (r : BitVec n) :
    (extendResult g r).extractLsb' 0 n = r := by
  ext i hi
  have hi64 : i < 64 := by omega
  cases g with
  | unsigned => simp [extendResult, hi64, BitVec.getLsbD_eq_getElem hi]
  | signed => simp [extendResult, hi, hi64, BitVec.getElem_signExtend]

/-- A 64-bit result is the port (40_datapath.md R85). -/
theorem extendResult_port (g : Signedness) (r : BitVec 64) : extendResult g r = r := by
  cases g with
  | unsigned => exact BitVec.setWidth_eq r
  | signed => exact BitVec.signExtend_eq r

/-- The sentinel is 64 zero bits (40_datapath.md R74, R85). -/
theorem extendResult_zero {n : Nat} (hn : n ≤ 64) (g : Signedness) : extendResult g (0#n) = 0 := by
  have hval : val g (0#n) = 0 := by
    cases g with
    | unsigned => simp [val]
    | signed => exact BitVec.toInt_zero
  rw [extendResult_eq_bitsOf hn, hval]
  rfl

/-- Settles O44: extension keeps the value and the low bits. -/
theorem portReadsAsTheResult : Obligations.PortReadsAsTheResult := by
  unfold Obligations.PortReadsAsTheResult
  have hn := width_bits_le_port
  exact ⟨fun w g r => ⟨val_extendResult (hn w) g r, extendResult_extractLsb' (hn w) g r⟩, extendResult_port,
    fun w g => extendResult_zero (hn w) g⟩

/-! ### What a command drives -/

/-- A command drives the port with its scaled product and does nothing else (40_datapath.md R89). -/
theorem exec_eq_withResult (i : Instr) (s : State) :
    exec i s = .next (s.withResult (extendResult i.sgn (scaled s.inst.halfStrategy i.sgn
      (product (operandA i.width.bits s.num) (operandB i.op i.width.bits s.mul)) i.shift.toNat))) :=
  exec_eq_driveResult i s

/-- Two states whose operands agree drive one result, whatever their strategies (40_datapath.md R71, R89). -/
theorem exec_congr_operands (i : Instr) {s u : State} (ha : operandA i.width.bits u.num = operandA i.width.bits s.num)
    (hb : operandB i.op i.width.bits u.mul = operandB i.op i.width.bits s.mul) :
    ∃ r : Port, exec i s = .next (s.withResult r) ∧ exec i u = .next (u.withResult r) := by
  refine ⟨_, exec_eq_driveResult i s, ?_⟩
  rw [compute_strategy_irrelevant s.inst.halfStrategy u.inst.halfStrategy, compute, ← ha, ← hb]
  exact exec_eq_driveResult i u

/-- Settles O20: the result is the scaled product, which only the operands enter. -/
theorem commandReadsInputsAndWritesResultOnly : Obligations.CommandReadsInputsAndWritesResultOnly := by
  unfold Obligations.CommandReadsInputsAndWritesResultOnly
  intro i s
  refine ⟨_, exec_eq_driveResult i s, fun u hnum hmul => ?_⟩
  rw [← hnum, ← hmul, compute_strategy_irrelevant s.inst.halfStrategy u.inst.halfStrategy]
  exact exec_eq_driveResult i u

/-- Settles O30: the operands are the low bits, so the other bits enter no result. -/
theorem ignoredOperandBits : Obligations.IgnoredOperandBits := by
  unfold Obligations.IgnoredOperandBits
  refine ⟨fun w num mul => ⟨operandA_eq_extractLsb' w num, operandB_rscale_eq_extractLsb' w mul,
    operandB_rshift _ mul⟩, fun i s num mul hnum hmul => ?_⟩
  apply exec_congr_operands
  · rwa [operandA_eq_extractLsb', operandA_eq_extractLsb']
  · cases hop : i.op with
    | rshift => rfl
    | rscale => rw [operandB_rscale_eq_extractLsb', operandB_rscale_eq_extractLsb', hmul hop]

/-- Settles O33: the selection gives the sentinel, whose extension is 0. -/
theorem outOfRangeShiftGivesTheSentinel : Obligations.OutOfRangeShiftGivesTheSentinel := by
  unfold Obligations.OutOfRangeShiftGivesTheSentinel
  intro i s hs
  rw [exec_eq_withResult, scaled_of_invalid _ _ hs, extendResult_zero (width_bits_le_port _)]

/-- Settles O34: the selection gives the product, which for RSHIFT is the operand. -/
theorem zeroShiftGivesTheProduct : Obligations.ZeroShiftGivesTheProduct := by
  unfold Obligations.ZeroShiftGivesTheProduct
  intro i s hs
  have hzero : i.shift.toNat = 0 := congrArg BitVec.toNat hs
  have hexec : exec i s = .next (s.withResult (extendResult i.sgn
      (product (operandA i.width.bits s.num) (operandB i.op i.width.bits s.mul)))) := by
    rw [exec_eq_withResult, hzero, scaled_zero]
  refine ⟨hexec, fun hop => ?_⟩
  rw [hexec, hop, product_rshift]

/-! ### Exact rounding -/

/-- ROUND is the floor plus the datapath's own decision on the discarded fraction (00_scope.md R16, 40_datapath.md
R82). -/
theorem ROUND_eq_floor_add_roundUp (x : ℚ) :
    ROUND x = ⌊x⌋ + if roundUp (decide (x < 0)) (decide (1 / 2 ≤ Int.fract x)) (decide (1 / 2 < Int.fract x)) then 1
      else 0 := by
  have h0 := Int.fract_nonneg x
  have h1 := Int.fract_lt_one x
  have hx := Int.floor_add_fract x
  rcases lt_or_ge x 0 with hneg | hnn
  · rw [ROUND, if_neg hneg.not_ge, neg_eq_iff_eq_neg, Int.floor_eq_iff, decide_eq_true hneg]
    simp only [roundUp, if_true, decide_eq_true_iff]
    split_ifs <;> push_cast <;> constructor <;> linarith
  · rw [ROUND, if_pos hnn, Int.floor_eq_iff, decide_eq_false hnn.not_gt]
    simp only [roundUp, Bool.false_eq_true, if_false, decide_eq_true_iff]
    split_ifs <;> push_cast <;> constructor <;> linarith

/-- ROUND leaves an integer alone. -/
theorem ROUND_intCast (m : ℤ) : ROUND (m : ℚ) = m := by
  rw [ROUND_eq_floor_add_roundUp, Int.fract_intCast, Int.floor_intCast]
  norm_num [roundUp]

/-- At a valid shift from 1 the stages together round p / 2^s (40_datapath.md R87). -/
theorem val_rounded {n s : Nat} {g : Signedness} (h : HalfStrategy) (p : BitVec n) (hs : 1 ≤ s ∧ s ≤ maxShift n g) :
    val g (rounded h g p s) = ROUND ((val g p : ℚ) / 2 ^ s) := by
  have hsign : decide ((val g p : ℚ) / 2 ^ s < 0) = decide (val g p < 0) := by
    rw [decide_eq_decide, div_lt_iff₀ (by positivity), zero_mul, Int.cast_lt_zero]
  rw [rounded, val_increment_truncated p _ hs, val_truncated_eq_floor, ROUND_eq_floor_add_roundUp,
    detectGe_eq_fract h p hs, detectGt_eq_fract h p hs, negative_eq_decide, hsign]

/-- At every valid shift the result's value is p / 2^s rounded (40_datapath.md R75, R87). -/
theorem val_scaled {n s : Nat} {g : Signedness} (h : HalfStrategy) (p : BitVec n) (hs : s ≤ maxShift n g) :
    val g (scaled h g p s) = ROUND ((val g p : ℚ) / 2 ^ s) := by
  rcases Nat.eq_zero_or_pos s with rfl | h1
  · rw [scaled_zero, pow_zero, div_one, ROUND_intCast]
  · rw [scaled_of_valid h p ⟨h1, hs⟩, val_rounded h p ⟨h1, hs⟩]

/-- Settles O47: the result is the rounded product. -/
theorem workingValueIsRoundedExactly : Obligations.WorkingValueIsRoundedExactly := by
  unfold Obligations.WorkingValueIsRoundedExactly
  intro i s _ hM
  exact ⟨_, exec_eq_withResult i s, val_scaled _ _ hM⟩

/-- Overflow is the exact product leaving the type's range (60_exceptions.md R142). -/
theorem arithmeticOverflow_eq_false_iff (i : Instr) (num mul : Port) :
    arithmeticOverflow i num mul = false ↔
      minValue i.sgn i.width.bits ≤ exactProduct i num mul ∧ exactProduct i num mul ≤ maxValue i.sgn i.width.bits := by
  unfold arithmeticOverflow
  cases hg : i.sgn with
  | unsigned =>
    have hnn : 0 ≤ exactProduct i num mul := by
      rw [exactProduct, hg]
      exact mul_nonneg (Int.natCast_nonneg _) (Int.natCast_nonneg _)
    simp [minValue, maxValue, hnn]
  | signed => simp [minValue, maxValue]

/-- Without overflow the wrapped product is the exact one (60_exceptions.md R142). -/
theorem val_product_of_no_overflow {i : Instr} {num mul : Port} (h : arithmeticOverflow i num mul = false) :
    val i.sgn (product (operandA i.width.bits num) (operandB i.op i.width.bits mul)) = exactProduct i num mul := by
  obtain ⟨hmin, hmax⟩ := (arithmeticOverflow_eq_false_iff i num mul).1 h
  rw [product_eq_bitsOf i.sgn]
  exact val_bitsOf (lt_of_lt_of_le (by decide) (width_eight_le_bits _)) hmin hmax

/-- Settles O48: at every valid shift the working value is rounded, and that value is the exact product unless it
overflows, and the operand for RSHIFT. -/
theorem operandsAreRoundedExactly : Obligations.OperandsAreRoundedExactly := by
  unfold Obligations.OperandsAreRoundedExactly
  intro i s hM
  refine ⟨_, exec_eq_withResult i s, fun hno => ?_, fun _ => val_scaled _ _ hM, fun hop => ?_⟩
  · rw [val_scaled _ _ hM, val_product_of_no_overflow hno, exactProduct, Int.cast_mul]
    refine ⟨rfl, fun hs => ?_⟩
    have hzero : i.shift.toNat = 0 := congrArg BitVec.toNat hs
    rw [hzero, pow_zero, div_one, ← Int.cast_mul, ROUND_intCast]
  · rw [val_scaled _ _ hM, hop, product_rshift]

/-! ### Exec -/

/-- The lines of Exec from M to r, for the product p (40_datapath.md R90). -/
def execSelected (sgn : Bool) (N s : Nat) (p : BitVec N) : BitVec N :=
  let M : Nat := if sgn then N - 2 else N - 1
  let valid : Bool := decide (s ≤ M)
  let half : BitVec N := if 1 ≤ s ∧ s ≤ M then bitsOf N (2 ^ (s - 1)) else bitsOf N 0
  let low : BitVec N := p &&& bitsOf N (2 ^ s - 1)
  let t : BitVec N := if sgn then asr p s else lsr p s
  let ge : Bool := decide (low.toNat ≥ half.toNat)
  let gt : Bool := decide (low.toNat > half.toNat)
  let neg : Bool := sgn && p.getLsbD (N - 1)
  let inc : Bool := if neg then gt else ge
  let rnd : BitVec N := bitsOf N (t.toNat + (if inc then 1 else 0))
  if valid = false then bitsOf N 0 else if s = 0 then p else rnd

/-- Exec multiplies, goes from M to r, and extends (40_datapath.md R90). -/
theorem execAt_eq (g : Signedness) (op : Bool) (N s : Nat) (num mul : Port) :
    execAt op (decide (g = .signed)) N s num mul =
      bitsOf 64 (val g (execSelected (decide (g = .signed)) N s (bitsOf N
        ((num.extractLsb' 0 N).toNat * (if op then mul.extractLsb' 0 N else bitsOf N 1).toNat)))) := by
  cases g <;> rfl

/-- From M to r, Exec and the datapath agree line by line (40_datapath.md R73 to R84, R90). -/
theorem execSelected_eq_scaled {n : Nat} (h : HalfStrategy) (g : Signedness) (s : Nat) (p : BitVec n) :
    execSelected (decide (g = .signed)) n s p = scaled h g p s := by
  have hM : (if decide (g = .signed) then n - 2 else n - 1) = maxShift n g := by cases g <;> rfl
  have ht : (if decide (g = .signed) then asr p s else lsr p s) = truncated g p s := by
    rw [truncated_eq_bitsOf]
    cases g <;> rfl
  have hneg : (decide (g = .signed) && p.getLsbD (n - 1)) = negative g p := by cases g <;> simp [negative]
  simp only [execSelected, hM, ht, hneg]
  rcases lt_or_ge (maxShift n g) s with hinvalid | hvalid
  · rw [if_pos (decide_eq_false hinvalid.not_ge), scaled_of_invalid h p hinvalid]
    rfl
  rw [if_neg (by simp [hvalid])]
  rcases Nat.eq_zero_or_pos s with rfl | h1
  · rw [if_pos rfl, scaled_zero]
  · have hs : 1 ≤ s ∧ s ≤ maxShift n g := ⟨h1, hvalid⟩
    rw [if_neg (Nat.ne_of_gt h1), scaled_of_valid h p hs, rounded, increment_eq_bitsOf .unsigned, if_pos hs,
      ← halfWeight_eq_bitsOf h hs, ← lowBits_eq_and_lowMask h p hs]
    rfl

/-- The datapath computes Exec from the operand ports to the port (40_datapath.md R71 to R85, R90). -/
theorem compute_eq_execAt (h : HalfStrategy) (op : Op) (g : Signedness) (w : Width) (s : Nat) (num mul : Port) :
    compute h op g w.bits s num mul =
      execAt (decide (op = .rscale)) (decide (g = .signed)) w.bits s num mul := by
  have hb : operandB op w.bits mul = if decide (op = .rscale) then mul.extractLsb' 0 w.bits else bitsOf w.bits 1 := by
    cases op with
    | rshift => rfl
    | rscale => exact operandB_rscale_eq_extractLsb' w mul
  have hp := product_eq_bitsOf .unsigned (operandA w.bits num) (operandB op w.bits mul)
  rw [compute, extendResult_eq_bitsOf (width_bits_le_port w), ← execSelected_eq_scaled, hp, operandA_eq_extractLsb', hb,
    execAt_eq]
  rfl

/-- Field `op` as the bit it is (30_encoding.md R53). -/
theorem decide_opField (c : CommandWord) : decide (opField c = .rscale) = c.getLsbD 3 := by
  rw [Bool.eq_iff_iff, decide_eq_true_iff, opField_eq_rscale_iff]

/-- A legal FIXED_SHIFT is held whole in the 8-bit shift (00_scope.md R9). -/
theorem toNat_ofNat_of_legal {w : Width} {g : Signedness} {k : Nat} (hlegal : legalMode (.fixed w g k) = true) :
    (BitVec.ofNat 8 k).toNat = k := by
  have hle : k ≤ maxShift w.bits g := of_decide_eq_true (Bool.and_eq_true_iff.1 hlegal).2
  have hlt := maxShift_lt_bits w g
  have hport := width_bits_le_port w
  rw [BitVec.toNat_ofNat, Nat.mod_eq_of_lt (by omega)]

/-- Under a legal SHIFT_MODE a command drives Exec of it (40_datapath.md R70, R86, R90). -/
theorem commandResult_eq_specExec {q : Params} (c : Command) (hlegal : legalMode q.shiftMode = true) :
    commandResult q c = specExec q.shiftMode c.cmd c.num c.mul := by
  rw [commandResult, compute_eq_execAt]
  cases hm : q.shiftMode with
  | runtime =>
    rw [decodeFor, decode_op, decode_sgn, decode_width, decode_shift, decide_opField, widthField_bits, specExec,
      (sgnField_eq_iff c.cmd _).1 rfl]
    rfl
  | fixed w g k =>
    rw [hm] at hlegal
    rw [decodeFor, makeInstr_op, makeInstr_sgn, makeInstr_width, makeInstr_shift, decide_opField,
      toNat_ofNat_of_legal hlegal, specExec]

/-- Settles O16: the step completes its command with what Exec gives. -/
theorem stepComputesExec : Obligations.StepComputesExec := by
  unfold Obligations.StepComputesExec
  intro s c rest hlegal hp
  rw [step_eq_afterCommand hp, commandResult_eq_specExec c hlegal]

end Sys2Proof.Machine
end

section
/-!
PROOFS. 41_rscale.md: the eight RSCALE rules (R100 to R107), from what every instruction rule says of its encoding and
of its pseudocode.
-/

namespace Sys2Proof.Machine

/-! ### The parts of an instruction rule -/

/-- The instruction whose words carry an opcode decodes as its rule's "Encoding" says (30_encoding.md R56, R59). -/
theorem encodedAs_of_encode {make : ShiftField → Instr} {op : Op} {g : Signedness} {w : Width} {opcode : BitVec 4}
    (hmake : make = makeInstr op g w) (hencode : ∀ k, encode (make k) = commandWord k opcode) (M : Nat) :
    EncodedAs make op g w opcode M := by
  refine ⟨fun k => ?_, fun k c _ _ hbit => ?_⟩
  · rw [← hencode k, decode_encode]
  · have hop : opField c = op := by
      rw [opField, hbit]
      cases op <;> rfl
    rw [decodeFor, hop, hmake]

/-- The unsigned pseudocode is the datapath (40_datapath.md R74 to R84). -/
theorem pseudoUnsigned_eq_scaled (h : HalfStrategy) {w : Width} (p : BitVec w.bits) (s : Nat) :
    pseudoUnsigned w.bits (maxShift w.bits .unsigned) p s = scaled h .unsigned p s := by
  rw [resultSelectionByPriority w .unsigned h p s, pseudoUnsigned]
  refine ite_congr rfl (fun _ => rfl) fun hvalid => ite_congr rfl (fun _ => rfl) fun hpos => ?_
  have hs : 1 ≤ s ∧ s ≤ maxShift w.bits .unsigned := by omega
  have ht : lsr p s = truncated .unsigned p s := (truncated_eq_bitsOf .unsigned p s).symm
  rw [rounded, increment_eq_bitsOf .unsigned, ht, ← lowBits_eq_and_lowMask h p hs, ← halfWeight_toNat h hs]
  simp [val, negative, roundUp, detectGe]

/-- The signed pseudocode is the datapath (40_datapath.md R74 to R84). -/
theorem pseudoSigned_eq_scaled (h : HalfStrategy) {w : Width} (p : BitVec w.bits) (s : Nat) :
    pseudoSigned w.bits (maxShift w.bits .signed) p s = scaled h .signed p s := by
  rw [resultSelectionByPriority w .signed h p s, pseudoSigned]
  refine ite_congr rfl (fun _ => rfl) fun hvalid => ite_congr rfl (fun _ => rfl) fun hpos => ?_
  have hs : 1 ≤ s ∧ s ≤ maxShift w.bits .signed := by omega
  have ht : asr p s = truncated .signed p s := (truncated_eq_bitsOf .signed p s).symm
  rw [rounded, increment_eq_bitsOf .signed, ht, ← lowBits_eq_and_lowMask h p hs, ← halfWeight_eq_bitsOf h hs]
  rfl

/-- The bit form of gt needs no check of s ≥ 2, since at shift 1 no bit lies below (40_datapath.md R80). -/
theorem bitGt_eq_and_extractLsb' {n s : Nat} (p : BitVec n) (h1 : 1 ≤ s) :
    bitGt p s = (p.getLsbD (s - 1) && decide (p.extractLsb' 0 (s - 1) ≠ 0)) := by
  rcases Nat.eq_or_lt_of_le h1 with rfl | h2
  · simp [bitGt_one, BitVec.of_length_zero]
  · rw [bitGt, decide_eq_true (Nat.succ_le_of_lt h2), Bool.true_and]

/-- The comparisons of the pseudocode have the bit forms its comments give (40_datapath.md R80). -/
theorem bitForms {n : Nat} (g : Signedness) (p : BitVec n) (s : Nat) : BitForms n (maxShift n g) p s := by
  intro h1 hM
  have hs := And.intro h1 hM
  rw [← lowBits_eq_and_lowMask .table p hs, ← halfWeight_toNat .table hs, ← bitGt_eq_and_extractLsb' p h1]
  exact ⟨detectGe_eq_bitGe .table p hs, detectGt_eq_bitGt .table p hs⟩

/-! ### RSCALE -/

/-- RSCALE drives the extension of its scaled product (40_datapath.md R71, R72, R85, R89). -/
theorem exec_rscale_eq_withResult (g : Signedness) (w : Width) (k : ShiftField) (s : State) :
    exec (makeInstr .rscale g w k) s = .next (s.withResult (bitsOf 64 (val g (scaled s.inst.halfStrategy g
      (bitsOf w.bits (val g (s.num.extractLsb' 0 w.bits) * val g (s.mul.extractLsb' 0 w.bits))) k.toNat)))) := by
  rw [exec_makeInstr, perform_eq, compute, extendResult_eq_bitsOf (width_bits_le_port w), product_eq_bitsOf g,
    operandA_eq_extractLsb', operandB_rscale_eq_extractLsb']
  rfl

/-- Where the exact product fits the type, it is what a valid shift rounds (40_datapath.md R88). -/
theorem val_scaled_bitsOf {n s : Nat} {g : Signedness} (h : HalfStrategy) {m : ℤ} (hn : 0 < n)
    (hs : s ≤ maxShift n g) (hmin : minValue g n ≤ m) (hmax : m ≤ maxValue g n) :
    val g (scaled h g (bitsOf n m) s) = ROUND ((m : ℚ) / 2 ^ s) := by
  rw [val_scaled h _ hs, val_bitsOf hn hmin hmax]

/-- No working width is empty. -/
theorem width_bits_pos (w : Width) : 0 < w.bits :=
  lt_of_lt_of_le (by decide) (width_eight_le_bits w)

/-- Every unsigned RSCALE instruction meets its rule (41_rscale.md R100 to R103). -/
theorem scaleRuleUnsigned_of_encode {make : ShiftField → Instr} {w : Width} {opcode : BitVec 4}
    (hmake : make = makeInstr .rscale .unsigned w) (hencode : ∀ k, encode (make k) = commandWord k opcode) :
    ScaleRuleUnsigned make w opcode (maxShift w.bits .unsigned) := by
  refine ⟨encodedAs_of_encode hmake hencode _, fun k s => ?_⟩
  intro a b p r
  have hr : r = scaled s.inst.halfStrategy .unsigned p k.toNat := pseudoUnsigned_eq_scaled _ p _
  rw [hr, hmake]
  refine ⟨exec_rscale_eq_withResult .unsigned w k s, bitForms .unsigned p _, fun hM => ?_, fun hM hlt => ?_⟩
  · exact val_scaled (g := .unsigned) _ p hM
  · have hmax : (a.toNat * b.toNat : ℤ) ≤ maxValue .unsigned w.bits := Int.le_sub_one_of_lt (mod_cast hlt)
    have hround := val_scaled_bitsOf s.inst.halfStrategy (width_bits_pos w) hM (by positivity) hmax
    rwa [Int.cast_mul] at hround

/-- Every signed RSCALE instruction meets its rule (41_rscale.md R104 to R107). -/
theorem scaleRuleSigned_of_encode {make : ShiftField → Instr} {w : Width} {opcode : BitVec 4}
    (hmake : make = makeInstr .rscale .signed w) (hencode : ∀ k, encode (make k) = commandWord k opcode) :
    ScaleRuleSigned make w opcode (maxShift w.bits .signed) := by
  refine ⟨encodedAs_of_encode hmake hencode _, fun k s => ?_⟩
  intro a b p r
  have hr : r = scaled s.inst.halfStrategy .signed p k.toNat := pseudoSigned_eq_scaled _ p _
  rw [hr, hmake]
  refine ⟨exec_rscale_eq_withResult .signed w k s, fun hM => ?_, fun hM hmin hmax => ?_⟩
  · exact val_scaled (g := .signed) _ p hM
  · rw [← Int.cast_mul]
    exact val_scaled_bitsOf s.inst.halfStrategy (width_bits_pos w) hM hmin hmax

/-- Settles O26: each of the four is the unsigned RSCALE of its width, under its opcode. -/
theorem unsignedScaleInstructions : Obligations.UnsignedScaleInstructions := by
  unfold Obligations.UnsignedScaleInstructions
  exact ⟨scaleRuleUnsigned_of_encode rfl fun _ => rfl, scaleRuleUnsigned_of_encode rfl fun _ => rfl,
    scaleRuleUnsigned_of_encode rfl fun _ => rfl, scaleRuleUnsigned_of_encode rfl fun _ => rfl⟩

/-- Settles O27: each of the four is the signed RSCALE of its width, under its opcode. -/
theorem signedScaleInstructions : Obligations.SignedScaleInstructions := by
  unfold Obligations.SignedScaleInstructions
  exact ⟨scaleRuleSigned_of_encode rfl fun _ => rfl, scaleRuleSigned_of_encode rfl fun _ => rfl,
    scaleRuleSigned_of_encode rfl fun _ => rfl, scaleRuleSigned_of_encode rfl fun _ => rfl⟩

end Sys2Proof.Machine
end

section
/-!
PROOFS. 42_rshift.md: the eight RSHIFT rules (R120 to R127) and the laws of RSHIFT (R128 to R131).
-/

namespace Sys2Proof.Machine

/-! ### The instruction rules -/

/-- RSHIFT drives the extension of its scaled operand, whatever `mul` holds (40_datapath.md R71, R72, R89). -/
theorem exec_rshift_eq_withResult (g : Signedness) (w : Width) (k : ShiftField) (s : State) :
    exec (makeInstr .rshift g w k) s = .next (s.withResult (extendResult g
      (scaled s.inst.halfStrategy g (operandA w.bits s.num) k.toNat))) := by
  rw [exec_makeInstr, perform_eq, compute, product_rshift]
  rfl

/-- The same with the port and the operand as the instruction rules write them (42_rshift.md R120 to R127). -/
theorem exec_rshift_eq_withResult_bitsOf (g : Signedness) (w : Width) (k : ShiftField) (s : State) :
    exec (makeInstr .rshift g w k) s = .next (s.withResult (bitsOf 64 (val g
      (scaled s.inst.halfStrategy g (s.num.extractLsb' 0 w.bits) k.toNat)))) := by
  rw [exec_rshift_eq_withResult, extendResult_eq_bitsOf (width_bits_le_port w), operandA_eq_extractLsb']

/-- Every unsigned RSHIFT instruction meets its rule (42_rshift.md R120 to R123). -/
theorem shiftRuleUnsigned_of_encode {make : ShiftField → Instr} {w : Width} {opcode : BitVec 4}
    (hmake : make = makeInstr .rshift .unsigned w) (hencode : ∀ k, encode (make k) = commandWord k opcode) :
    ShiftRuleUnsigned make w opcode (maxShift w.bits .unsigned) := by
  refine ⟨encodedAs_of_encode hmake hencode _, fun k s => ?_⟩
  intro a r
  have hr : r = scaled s.inst.halfStrategy .unsigned a k.toNat := pseudoUnsigned_eq_scaled _ a _
  rw [hr, hmake]
  exact ⟨exec_rshift_eq_withResult_bitsOf .unsigned w k s, bitForms .unsigned a _, val_scaled (g := .unsigned) _ a⟩

/-- Every signed RSHIFT instruction meets its rule (42_rshift.md R124 to R127). -/
theorem shiftRuleSigned_of_encode {make : ShiftField → Instr} {w : Width} {opcode : BitVec 4}
    (hmake : make = makeInstr .rshift .signed w) (hencode : ∀ k, encode (make k) = commandWord k opcode) :
    ShiftRuleSigned make w opcode (maxShift w.bits .signed) := by
  refine ⟨encodedAs_of_encode hmake hencode _, fun k s => ?_⟩
  intro a r
  have hr : r = scaled s.inst.halfStrategy .signed a k.toNat := pseudoSigned_eq_scaled _ a _
  rw [hr, hmake]
  exact ⟨exec_rshift_eq_withResult_bitsOf .signed w k s, bitForms .signed a _, val_scaled (g := .signed) _ a⟩

/-- Settles O28: each of the four is the unsigned RSHIFT of its width, under its opcode. -/
theorem unsignedShiftInstructions : Obligations.UnsignedShiftInstructions := by
  unfold Obligations.UnsignedShiftInstructions
  exact ⟨shiftRuleUnsigned_of_encode rfl fun _ => rfl, shiftRuleUnsigned_of_encode rfl fun _ => rfl,
    shiftRuleUnsigned_of_encode rfl fun _ => rfl, shiftRuleUnsigned_of_encode rfl fun _ => rfl⟩

/-- Settles O29: each of the four is the signed RSHIFT of its width, under its opcode. -/
theorem signedShiftInstructions : Obligations.SignedShiftInstructions := by
  unfold Obligations.SignedShiftInstructions
  exact ⟨shiftRuleSigned_of_encode rfl fun _ => rfl, shiftRuleSigned_of_encode rfl fun _ => rfl,
    shiftRuleSigned_of_encode rfl fun _ => rfl, shiftRuleSigned_of_encode rfl fun _ => rfl⟩

/-! ### RSHIFT and RSCALE -/

/-- The constant operand of RSHIFT has the value 1 in every type (40_datapath.md R71). -/
theorem val_operandB_rshift (g : Signedness) (w : Width) (mul : Port) : val g (operandB .rshift w.bits mul) = 1 := by
  have hone : 1 < w.bits := lt_of_lt_of_le (by decide) (width_eight_le_bits w)
  cases g with
  | unsigned => exact congrArg Nat.cast (BitVec.toNat_one (width_bits_pos w))
  | signed => exact BitVec.toInt_one hone

/-- The exact product of RSHIFT is its operand, which fits (60_exceptions.md R142). -/
theorem arithmeticOverflow_rshift {i : Instr} (hop : i.op = .rshift) (num mul : Port) :
    arithmeticOverflow i num mul = false := by
  rw [arithmeticOverflow_eq_false_iff, exactProduct, hop, val_operandB_rshift, mul_one]
  exact val_mem_range _ _

/-- RSHIFT computes what RSCALE does with 1 on `mul` (42_rshift.md R128). -/
theorem compute_rscale_one (h : HalfStrategy) (g : Signedness) (w : Width) (k : Nat) (num mul : Port) :
    compute h .rscale g w.bits k num 1 = compute h .rshift g w.bits k num mul := by
  have hb : operandB .rscale w.bits 1 = operandB .rshift w.bits mul := by cases w <;> rfl
  rw [compute, compute, hb]

/-- Settles O53: both commands compute one value; the operand times 1 fits, and a valid shift rounds it. -/
theorem shiftIsScaleByOne : Obligations.ShiftIsScaleByOne := by
  unfold Obligations.ShiftIsScaleByOne
  intro g w k s
  refine ⟨⟨_, exec_makeInstr .rshift g w k s, ?_⟩, arithmeticOverflow_rshift (makeInstr_op _ _ _ _) _ _, fun hM => ?_⟩
  · rw [exec_makeInstr, perform_eq, compute_rscale_one]
    rfl
  · exact ⟨_, exec_rshift_eq_withResult g w k s, val_scaled _ _ hM⟩

/-! ### The zero shift -/

/-- Settles O54: the selection passes the operand through, and elaboration accepts FIXED shifts from 1 only. -/
theorem zeroShiftIsTheIdentity : Obligations.ZeroShiftIsTheIdentity := by
  unfold Obligations.ZeroShiftIsTheIdentity
  refine ⟨fun g w s => ?_, fun width g h l il helab => ?_⟩
  · have hzero : (0 : ShiftField).toNat = 0 := rfl
    rw [exec_rshift_eq_withResult, operandA_eq_extractLsb', hzero, scaled_zero]
  · obtain ⟨haccepted, _, _⟩ := elaborationAcceptsExactlyTheLegalParameters
    obtain ⟨w, _, hone, _⟩ := (haccepted width g 0 h l il).1 helab
    omega

/-! ### Monotonicity and range -/

/-- ROUND is non-decreasing (00_scope.md R16). -/
theorem ROUND_mono : Monotone ROUND := by
  intro x y hxy
  unfold ROUND
  split_ifs with hx hy hy
  · exact Int.floor_mono (by linarith)
  · exact absurd (hx.trans hxy) hy
  · have hleft : 0 ≤ ⌊-x + 1 / 2⌋ := Int.floor_nonneg.2 (by linarith)
    have hright : 0 ≤ ⌊y + 1 / 2⌋ := Int.floor_nonneg.2 (by linarith)
    omega
  · exact neg_le_neg (Int.floor_mono (by linarith))

/-- Rounded quotients by one power of two are ordered as their numerators (42_rshift.md R130). -/
theorem ROUND_div_two_pow_le {a b : ℤ} (hab : a ≤ b) (s : Nat) : ROUND ((a : ℚ) / 2 ^ s) ≤ ROUND ((b : ℚ) / 2 ^ s) :=
  ROUND_mono (div_le_div_of_nonneg_right (Int.cast_le.2 hab) (by positivity))

/-- Settles O55: a valid shift rounds both operands, and an invalid one gives 0 twice. -/
theorem shiftIsMonotone : Obligations.ShiftIsMonotone := by
  unfold Obligations.ShiftIsMonotone
  intro g w k s u hle
  refine ⟨_, _, exec_rshift_eq_withResult g w k s, exec_rshift_eq_withResult g w k u, ?_⟩
  rcases lt_or_ge (maxShift w.bits g) k.toNat with hinvalid | hvalid
  · rw [scaled_of_invalid _ _ hinvalid, scaled_of_invalid _ _ hinvalid]
    exact ⟨le_rfl, fun _ => ⟨rfl, rfl⟩⟩
  · rw [val_scaled _ _ hvalid, val_scaled _ _ hvalid]
    exact ⟨ROUND_div_two_pow_le hle _, fun hinvalid => absurd hvalid hinvalid.not_ge⟩

/-- The smallest signed operand at MaxShift is exactly -2 (42_rshift.md R131). -/
theorem ROUND_minValue_signed {n : Nat} (hn : 2 ≤ n) : ROUND ((minValue .signed n : ℚ) / 2 ^ (n - 2)) = -2 := by
  obtain ⟨m, rfl⟩ := Nat.exists_eq_add_of_le' hn
  have hquot : (minValue .signed (m + 2) : ℚ) / 2 ^ m = ((-2 : ℤ) : ℚ) := by
    simp only [minValue, Nat.add_one_sub_one, pow_succ]
    push_cast
    field_simp
  rw [Nat.add_sub_cancel, hquot, ROUND_intCast]

/-- The largest signed operand at MaxShift is at most one half below 2, and so rounds to it (42_rshift.md R131). -/
theorem ROUND_maxValue_signed {n : Nat} (hn : 3 ≤ n) : ROUND ((maxValue .signed n : ℚ) / 2 ^ (n - 2)) = 2 := by
  obtain ⟨m, rfl⟩ := Nat.exists_eq_add_of_le' hn
  have hquot : (maxValue .signed (m + 3) : ℚ) / 2 ^ (m + 1) = 2 - 1 / 2 ^ (m + 1) := by
    simp only [maxValue, Nat.add_one_sub_one, pow_succ]
    push_cast
    field_simp
  have hpos : (0 : ℚ) < 1 / 2 ^ (m + 1) := by positivity
  have hhalf : (1 : ℚ) / 2 ^ (m + 1) ≤ 1 / 2 :=
    one_div_le_one_div_of_le zero_lt_two (le_self_pow₀ one_le_two (by omega))
  rw [show m + 3 - 2 = m + 1 from rfl, hquot, ROUND, if_pos (by linarith), Int.floor_eq_iff]
  constructor <;> push_cast <;> linarith

/-- Settles O56: the operand lies in its type's range, and rounding keeps the order. -/
theorem shiftResultRange : Obligations.ShiftResultRange := by
  unfold Obligations.ShiftResultRange
  intro g w k s _ hM
  have h8 := width_eight_le_bits w
  obtain ⟨hmin, hmax⟩ := val_mem_range g (operandA w.bits s.num)
  refine ⟨_, exec_rshift_eq_withResult g w k s, ?_⟩
  rw [val_scaled _ _ hM]
  refine ⟨ROUND_div_two_pow_le hmin _, ROUND_div_two_pow_le hmax _, ?_, ?_⟩
  · rintro rfl
    rw [minValue, Int.cast_zero, zero_div]
    exact ROUND_intCast 0
  · rintro rfl hk
    rw [hk]
    exact ⟨ROUND_minValue_signed (by omega), ROUND_maxValue_signed (by omega)⟩

end Sys2Proof.Machine
end

section
/-!
PROOFS. 60_exceptions.md: both conditions at once (R145), and the valid commands that return 0 too (R153).
-/

namespace Sys2Proof.Machine

/-! ### Both conditions at once -/

/-- InvalidShift, as a proposition (60_exceptions.md R141). -/
theorem invalidShift_iff (i : Instr) : invalidShift i = true ↔ maxShift i.width.bits i.sgn < i.shift.toNat :=
  decide_eq_true_iff

/-- InvalidShift governs whatever the operands hold (60_exceptions.md R145). -/
theorem governingCondition_of_invalidShift {i : Instr} (h : invalidShift i = true) (num mul : Port) :
    governingCondition i num mul = .invalidShift :=
  if_pos h

/-- Settles O50: 127 · 127 leaves I8 and a shift of 7 is past its MaxShift; the invalid shift alone gives the
sentinel. -/
theorem invalidShiftGovernsOverOverflow : Obligations.InvalidShiftGovernsOverOverflow := by
  unfold Obligations.InvalidShiftGovernsOverOverflow
  refine ⟨⟨.rscaleI8 7, 127, 127, by decide, by decide⟩, fun i s hinvalid _ => ?_⟩
  exact ⟨governingCondition_of_invalidShift hinvalid _ _,
    outOfRangeShiftGivesTheSentinel i s ((invalidShift_iff i).1 hinvalid)⟩

/-! ### Valid commands that return 0 -/

/-- Less than one half in magnitude rounds to 0 (00_scope.md R16). -/
theorem ROUND_eq_zero_of_abs_lt {x : ℚ} (h : |x| < 1 / 2) : ROUND x = 0 := by
  obtain ⟨hlo, hhi⟩ := abs_lt.1 h
  unfold ROUND
  split_ifs with hx
  · exact Int.floor_eq_zero_iff.2 ⟨by linarith, by linarith⟩
  · exact neg_eq_zero.2 (Int.floor_eq_zero_iff.2 ⟨by linarith, by linarith⟩)

/-- A valid shift gives 0 for every p below half its divisor in magnitude (40_datapath.md R87). -/
theorem scaled_eq_zero_of_small {n s : Nat} {g : Signedness} (h : HalfStrategy) {p : BitVec n}
    (hs : s ≤ maxShift n g) (hsmall : 2 * (val g p).natAbs < 2 ^ s) : scaled h g p s = 0#n := by
  have hcast : (2 : ℚ) * |(val g p : ℚ)| < 2 ^ s := by
    rw [← Int.cast_abs, ← Nat.cast_natAbs]
    exact_mod_cast hsmall
  have habs : |(val g p : ℚ) / 2 ^ s| < 1 / 2 := by
    rw [abs_div, abs_of_pos (by positivity : (0 : ℚ) < 2 ^ s), div_lt_iff₀ (by positivity)]
    linarith
  rw [← bitsOf_val g (scaled h g p s), val_scaled h p hs, ROUND_eq_zero_of_abs_lt habs]
  exact BitVec.ofInt_natCast n 0

/-- A valid command whose product is that small returns 0, as an invalid shift does (60_exceptions.md R153). -/
theorem exec_withResult_zero_of_small_product {i : Instr} {s : State} (p : BitVec i.width.bits)
    (hp : product (operandA i.width.bits s.num) (operandB i.op i.width.bits s.mul) = p)
    (hs : i.shift.toNat ≤ maxShift i.width.bits i.sgn) (hsmall : 2 * (val i.sgn p).natAbs < 2 ^ i.shift.toNat) :
    exec i s = .next (s.withResult 0) := by
  rw [exec_eq_withResult, hp, scaled_eq_zero_of_small _ hs hsmall, extendResult_zero (width_bits_le_port _)]

/-- Settles O52: the products are the operands 0 and -1, below half of 2^3 and of 2^2; shifts of 8 and 7 are past
MaxShift. -/
theorem sentinelIsAmbiguous : Obligations.SentinelIsAmbiguous := by
  unfold Obligations.SentinelIsAmbiguous
  refine fun s => ⟨?_, outOfRangeShiftGivesTheSentinel _ _ (by decide), ?_,
    outOfRangeShiftGivesTheSentinel _ _ (by decide)⟩
  · exact exec_withResult_zero_of_small_product (operandA 8 0) (product_rshift _ _) (by decide) (by decide)
  · exact exec_withResult_zero_of_small_product (operandA 8 (-1)) (BitVec.mul_one _) (by decide) (by decide)

end Sys2Proof.Machine
end

section
/-!
PROOFS. 70_reset_and_hazards.md: what a run of commands observes (R167).
-/

namespace Sys2Proof.Machine

@[simp] theorem State.afterCommand_inst (s : State) (c : Command) (rest : List Command) (r : Port) :
    (s.afterCommand c rest r).inst = s.inst := rfl
@[simp] theorem State.afterCommand_pending (s : State) (c : Command) (rest : List Command) (r : Port) :
    (s.afterCommand c rest r).pending = rest := rfl
@[simp] theorem State.afterCommand_results (s : State) (c : Command) (rest : List Command) (r : Port) :
    (s.afterCommand c rest r).results = s.results ++ [r] := rfl

/-- Settles O17, by induction on the commands still to be presented, over every state that has them pending. -/
theorem runObservesTheListOfResults : Obligations.RunObservesTheListOfResults := by
  unfold Obligations.RunObservesTheListOfResults
  intro s cs hlegal hp
  induction cs generalizing s with
  | nil => exact ⟨s, rfl, hp, rfl, (List.append_nil _).symm⟩
  | cons c rest ih =>
    have hstep := stepComputesExec s c rest hlegal hp
    obtain ⟨t, hrun, hpending, hinst, hresults⟩ :=
      ih (s.afterCommand c rest (specExec s.inst.shiftMode c.cmd c.num c.mul)) hlegal (State.afterCommand_pending ..)
    refine ⟨t, (core_run_succ hstep).trans hrun, hpending, hinst, ?_⟩
    rw [hresults, State.afterCommand_results, State.afterCommand_inst, List.append_assoc, List.map_cons,
      List.singleton_append]

end Sys2Proof.Machine
end

section
/-!
PROOFS. 30_encoding.md: words and instructions determine each other on every instance (R56, R57, R59).
-/

namespace Sys2Proof.Machine

/-! ### Every instance -/

@[simp] theorem sgnField_encode (i : Instr) : sgnField (encode i) = i.sgn := by
  rw [← decode_sgn, decode_encode]

@[simp] theorem widthField_encode (i : Instr) : widthField (encode i) = i.width := by
  rw [← decode_width, decode_encode]

@[simp] theorem shiftField_encode (i : Instr) : shiftField (encode i) = i.shift := by
  rw [← decode_shift, decode_encode]

/-- An instance decodes the word of each of its instructions to that instruction (30_encoding.md R56, R59). -/
theorem decodeFor_encode {m : ShiftMode} {i : Instr} (hi : WellFormed m i = true) : decodeFor m (encode i) = i := by
  cases m with
  | runtime => exact decode_encode i
  | fixed w g k =>
    obtain ⟨hw, hg, hk⟩ := (wellFormed_fixed_iff w g k i).1 hi
    rw [decodeFor_fixed_eq_decode (by rw [sgnField_encode, hg]) (by rw [widthField_encode, hw])
      (by rw [shiftField_encode, hk]), decode_encode]

/-- What an instance decodes is one of its instructions (30_encoding.md R57, R59). -/
theorem wellFormed_decodeFor {m : ShiftMode} (hlegal : legalMode m = true) (c : CommandWord) :
    WellFormed m (decodeFor m c) = true := by
  cases m with
  | runtime => rfl
  | fixed w g k =>
    rw [wellFormed_fixed_iff, decodeFor, makeInstr_width, makeInstr_sgn, makeInstr_shift]
    exact ⟨rfl, rfl, toNat_ofNat_of_legal hlegal⟩

/-- Settles O10: a FIXED instance's words carry its own values, so they decode as on a RUNTIME instance; and a legal
FIXED_SHIFT is held whole in the decoded shift. -/
theorem decodeOfEncodeIsTheInstruction : Obligations.DecodeOfEncodeIsTheInstruction := by
  unfold Obligations.DecodeOfEncodeIsTheInstruction
  exact fun m hlegal => ⟨fun i => decodeFor_encode, wellFormed_decodeFor hlegal⟩

/-! ### Every word -/

/-- The word of an instruction is its shift above an opcode that may be looked up beside shift 0 (30_encoding.md
R56). -/
theorem encode_makeInstr (op : Op) (g : Signedness) (w : Width) (k : ShiftField) :
    encode (makeInstr op g w k) = commandWord k ((encode (makeInstr op g w 0)).extractLsb' 0 4) := by
  cases op <;> cases g <;> cases w <;> rfl

/-- A word is its shift above its opcode (30_encoding.md R50). -/
theorem commandWord_fields (c : CommandWord) : commandWord (shiftField c) (c.extractLsb' 0 4) = c :=
  (BitVec.extractLsb'_append_extractLsb'_eq_extractLsb' rfl).trans BitVec.extractLsb'_eq_self

/-- The word of what a word decodes to is that word: 16 opcodes looked up (30_encoding.md R57). -/
theorem encode_decode (c : CommandWord) : encode (decode c) = c := by
  have hopcode : ∀ o : BitVec 4, (encode (makeInstr (opField (commandWord 0 o)) (sgnField (commandWord 0 o))
      (widthField (commandWord 0 o)) 0)).extractLsb' 0 4 = o := by decide
  rw [← commandWord_fields c, decode_commandWord, encode_makeInstr, hopcode]

/-- A field of 12 bits or more holds every command word, and is decoded as that word (30_encoding.md R57). -/
theorem decodeTableWord_toNat {nbits : Nat} (hn : 12 ≤ nbits) (c : CommandWord) :
    decodeTableWord nbits c.toNat = some (decode c) := by
  have hfits : c.toNat % 2 ^ nbits = c.toNat :=
    Nat.mod_eq_of_lt (c.isLt.trans_le (Nat.pow_le_pow_right (by decide) hn))
  rw [decodeTableWord, hfits, decodeNumber, if_pos c.isLt, BitVec.ofNat_toNat, BitVec.setWidth_eq]

/-- Settles O11: `encode` and `decode` undo each other, and a word has no bit above bit 11. -/
theorem everyWordIsAnInstruction : Obligations.EveryWordIsAnInstruction := by
  unfold Obligations.EveryWordIsAnInstruction
  exact fun c => ⟨encode_decode c, decodeTableWord_toNat (by decide) c, decodeTableWord_toNat (by decide) c⟩

/-- Settles O7: eight closed words, computed. -/
theorem sampleWordsDecode : Obligations.SampleWordsDecode := by
  unfold Obligations.SampleWordsDecode
  decide

end Sys2Proof.Machine
end

section
/-!
PROOFS. 10_state.md, 20_memory.md and 70_reset_and_hazards.md: what a step does, the invariant it keeps (R22, R32), what
a result does not depend on (R43, R45, R164), and reset (R160, R161).
-/

namespace Sys2Proof.Machine

/-! ### The step as a function -/

/-- The one state a step ends in: with a command pending, the state after it; with none, the waiting state (10_state.md
R33, log entry 5). -/
def nextState (s : State) : State :=
  match s.pending with
  | [] => s.idle
  | c :: rest => s.afterCommand c rest (commandResult s.inst c)

/-- With no command pending a step waits (log entry 5). -/
theorem step_of_no_command {s : State} (hp : s.pending = []) : step s = .next s.idle := by
  rw [step, fetch, hp]

/-- Every step ends in its next state (60_exceptions.md R140). -/
theorem step_eq_nextState (s : State) : step s = .next (nextState s) := by
  unfold nextState
  split
  · next hp => exact step_of_no_command hp
  · next c rest hp => exact step_eq_afterCommand hp

/-- A step has no other outcome. -/
theorem step_eq_next_iff {s t : State} : step s = .next t ↔ nextState s = t := by
  rw [step_eq_nextState, Host.Outcome.next.injEq]

/-- Settles O15: each outcome is given as a next state. -/
theorem nothingTrapsOrStalls : Obligations.NothingTrapsOrStalls := by
  unfold Obligations.NothingTrapsOrStalls
  exact ⟨fun i s => ⟨_, exec_eq_driveResult i s⟩, fun s => ⟨_, step_eq_nextState s⟩⟩

/-- Settles O13: `fetch` presents and decodes the pending command. -/
theorem stepRunsTheDecodedInstruction : Obligations.StepRunsTheDecodedInstruction := by
  unfold Obligations.StepRunsTheDecodedInstruction
  intro s c rest hp
  rw [step, fetch, hp]

/-- Settles O14: the step waits, and waiting asks whether a command has completed. -/
theorem stepWithoutCommandWaits : Obligations.StepWithoutCommandWaits := by
  unfold Obligations.StepWithoutCommandWaits
  intro s hp
  rw [step_of_no_command hp]
  refine ⟨fun hvalid => ?_, fun hinvalid => ?_⟩
  · rw [State.idle_of_valid hvalid]
  · rw [State.idle_of_not_valid hinvalid, State.drawResult]

/-- Settles O19: waiting leaves all three alone, and a command adds its result and leaves the list. -/
theorem stepKeepsParametersAndObservations : Obligations.StepKeepsParametersAndObservations := by
  unfold Obligations.StepKeepsParametersAndObservations
  intro s t h
  obtain rfl := step_eq_next_iff.1 h
  unfold nextState
  split
  · next hp =>
    rw [State.idle_inst, State.idle_results, State.idle_pending, hp]
    exact ⟨rfl, List.prefix_rfl, rfl⟩
  · next c rest hp =>
    rw [State.afterCommand_inst, State.afterCommand_results, State.afterCommand_pending, hp]
    exact ⟨rfl, List.prefix_append _ _, rfl⟩

/-! ### The invariant -/

/-- The legal FIXED parameters (00_scope.md R9). -/
theorem legalMode_fixed_iff (w : Width) (g : Signedness) (k : Nat) :
    legalMode (.fixed w g k) = true ↔ 1 ≤ k ∧ k ≤ maxShift w.bits g := by
  simp [legalMode]

/-- Elaboration accepts legal modes only (00_scope.md R9). -/
theorem legalMode_of_elaborateMode {r : RequestedMode} {m : ShiftMode} (h : elaborateMode r = .ok m) :
    legalMode m = true := by
  cases r with
  | runtime =>
    cases h
    rfl
  | fixed width g shift =>
    obtain ⟨w, _, ⟨hmin, hmax⟩, rfl⟩ := (elaborateMode_fixed_eq_ok_iff width g shift m).1 h
    rw [legalMode_fixed_iff]
    omega

/-- A legal instance meets the invariant at power-up, `result` being free value number 0 (70_reset_and_hazards.md
R161). -/
theorem State.powerUp_inv {p : Params} (hlegal : legalMode p.shiftMode = true) : (State.powerUp p).Inv :=
  ⟨hlegal, fun _ => ⟨0, Nat.zero_lt_one, rfl⟩, nofun⟩

/-- The parameters of an instance that meets the invariant are legal (40_datapath.md R86). -/
theorem State.Inv.legal {s : State} (h : s.Inv) : legalMode s.inst.shiftMode = true := h.1

/-- Drawing a free value keeps the invariant where no command has completed. -/
theorem State.Inv.drawResult {s : State} (h : s.Inv) (hinvalid : s.resultValid = false) : s.drawResult.Inv := by
  refine ⟨h.legal, fun _ => ⟨s.draws, Nat.lt_succ_self _, rfl⟩, fun hvalid => ?_⟩
  rw [drawResult_resultValid, hinvalid] at hvalid
  cases hvalid

/-- Waiting keeps the invariant. -/
theorem State.Inv.idle {s : State} (h : s.Inv) : s.idle.Inv := by
  cases hv : s.resultValid with
  | false =>
    rw [State.idle_of_not_valid hv]
    exact h.drawResult hv
  | true => rwa [State.idle_of_valid hv]

/-- A completed command on a legal instance makes the invariant hold, whatever held before (40_datapath.md R90,
70_reset_and_hazards.md R167). -/
theorem State.afterCommand_inv {s : State} (hlegal : legalMode s.inst.shiftMode = true) (c : Command)
    (rest : List Command) : (s.afterCommand c rest (commandResult s.inst c)).Inv :=
  ⟨hlegal, nofun, fun _ => ⟨commandResult_eq_specExec c hlegal, List.getLast?_concat⟩⟩

/-- Settles O18: waiting keeps the invariant and a completed command makes it hold. -/
theorem stepKeepsTheInvariant : Obligations.StepKeepsTheInvariant := by
  unfold Obligations.StepKeepsTheInvariant
  intro s t hinv h
  obtain rfl := step_eq_next_iff.1 h
  unfold nextState
  split
  · exact hinv.idle
  · exact State.afterCommand_inv hinv.legal _ _

/-- Settles O3: elaboration gives a powered-up instance of a legal mode. -/
theorem elaboratedInstancesMeetTheInvariant : Obligations.ElaboratedInstancesMeetTheInvariant := by
  unfold Obligations.ElaboratedInstancesMeetTheInvariant
  intro q s h
  obtain ⟨m, hm, rfl⟩ := (elaborate_eq_ok_iff q s).1 h
  exact ⟨State.powerUp_inv (legalMode_of_elaborateMode hm), rfl⟩

/-- Settles O2: reset is a power-up of the default instance, whose mode is legal. -/
theorem resetMeetsTheInvariant : Obligations.ResetMeetsTheInvariant := by
  unfold Obligations.ResetMeetsTheInvariant
  exact State.powerUp_inv rfl

/-- Settles O1: the fields of the default instance at power-up; the free value is the invariant's. -/
theorem resetIsAnUnusedRuntimeInstance : Obligations.ResetIsAnUnusedRuntimeInstance := by
  unfold Obligations.ResetIsAnUnusedRuntimeInstance
  obtain ⟨_, hfree, _⟩ := resetMeetsTheInvariant
  exact ⟨rfl, rfl, hfree rfl, rfl, rfl⟩

/-- Settles O5: both steps complete the command with Exec of it, since reset keeps the mode and what is pending. -/
theorem resetChangesNoRule : Obligations.ResetChangesNoRule := by
  unfold Obligations.ResetChangesNoRule
  exact fun s c rest hlegal hp =>
    ⟨rfl, stepComputesExec s c rest hlegal hp, stepComputesExec s.assertReset c rest hlegal hp⟩

/-! ### What a result does not depend on -/

/-- A command's result is fixed by the decoded instruction and the operands (40_datapath.md R89). -/
theorem commandResult_congr {p q : Params} {c d : Command}
    (hdecode : decodeFor p.shiftMode c.cmd = decodeFor q.shiftMode d.cmd) (hnum : c.num = d.num)
    (hmul : c.mul = d.mul) : commandResult p c = commandResult q d := by
  rw [commandResult, commandResult, hdecode, hnum, hmul,
    compute_strategy_irrelevant p.halfStrategy q.halfStrategy]

/-- Settles O21: one mode decodes one instruction from the command. -/
theorem resultIsIndependentOfHistory : Obligations.ResultIsIndependentOfHistory := by
  unfold Obligations.ResultIsIndependentOfHistory
  intro s u c rest rest' hmode hs hu
  have hresult : commandResult s.inst c = commandResult u.inst c := commandResult_congr (by rw [hmode]) rfl rfl
  exact ⟨_, step_eq_afterCommand hs, hresult ▸ step_eq_afterCommand hu⟩

/-- Settles O22: the first step leaves the instance as it was, so the second drives the same result. -/
theorem commandsAreIdempotent : Obligations.CommandsAreIdempotent := by
  unfold Obligations.CommandsAreIdempotent
  intro s c rest hp
  have hfirst := core_run_succ (k := 1) (step_eq_afterCommand hp)
  have hsecond := core_run_succ (k := 0) (step_eq_afterCommand
    (State.afterCommand_pending s c (c :: rest) (commandResult s.inst c)))
  refine ⟨commandResult s.inst c, _, hfirst.trans hsecond, ?_, rfl⟩
  rw [State.afterCommand_results, State.afterCommand_results, List.append_assoc]
  rfl

/-- Settles O24: the datapath reads neither parameter. -/
theorem noResultDependsOnTheTimingParameters : Obligations.NoResultDependsOnTheTimingParameters := by
  unfold Obligations.NoResultDependsOnTheTimingParameters
  intro s l il i
  rw [exec_eq_driveResult, exec_eq_driveResult]
  rfl

/-! ### Several instances -/

/-- A step of one instance changes that instance to its next state, and nothing else (10_state.md R34). -/
theorem stepAt_eq_modify (k : Nat) (sys : List State) : stepAt k sys = .next (sys.modify k nextState) := by
  unfold stepAt
  cases hk : sys[k]? with
  | none => rw [List.modify_eq_self (List.getElem?_eq_none_iff.1 hk)]
  | some s => simp only [step_eq_nextState, List.modify_eq_set_getElem?, hk]; rfl

/-- Settles O25: a step is a change at one place of the list, and changes at two places commute. -/
theorem instancesShareNothing : Obligations.InstancesShareNothing := by
  unfold Obligations.InstancesShareNothing
  refine ⟨fun k sys sys' h => ?_, fun j k sys hne => ?_⟩
  · obtain rfl := Host.Outcome.next.inj ((stepAt_eq_modify k sys).symm.trans h)
    refine ⟨List.length_modify .., fun j hj => List.getElem?_modify_ne _ _ hj.symm, fun s hs => ?_⟩
    exact ⟨nextState s, step_eq_nextState s, by rw [List.getElem?_modify_eq, hs]; rfl⟩
  · refine ⟨_, _, _, stepAt_eq_modify j sys, stepAt_eq_modify k _, stepAt_eq_modify k sys, ?_⟩
    rw [stepAt_eq_modify, List.modify_modify_ne _ _ _ hne]

end Sys2Proof.Machine
end

section
/-!
PROOFS. 10_state.md R30, 40_datapath.md R86 and 60_exceptions.md R141 to R145: the half-bit tables, FIXED instances, and
what the conditions mean for the result.
-/

namespace Sys2Proof.Machine

/-! ### The half-bit tables -/

/-- The table has entries 1 to N - 1 (10_state.md R30, log entry 8). -/
theorem halfTable_length (n : Nat) : (halfTable n).length = n - 1 := by
  rw [halfTable, List.length_map, List.length_range]

/-- Bit s - 1 alone is set in entry s of the table (10_state.md R30). -/
theorem tableHalf_getLsbD {n s : Nat} (h1 : 1 ≤ s) (hn : s ≤ n - 1) (j : Nat) :
    (tableHalf n s).getLsbD j = decide (j = s - 1) := by
  have htwo : tableHalf n s = BitVec.twoPow n (s - 1) :=
    (tableHalf_eq_ofNat h1 hn).trans (computedHalf_eq_ofNat n s).symm
  have hlt : s - 1 < n := by omega
  rw [htwo, BitVec.getLsbD_twoPow, decide_eq_true hlt, Bool.true_and]
  exact decide_eq_decide.2 eq_comm

/-- Settles O35: each entry is the half-bit weight, and the entries of width 8 are computed. -/
theorem halfBitTableContents : Obligations.HalfBitTableContents := by
  unfold Obligations.HalfBitTableContents
  refine ⟨fun w => ⟨halfTable_length w.bits, fun s h1 hn => ⟨?_, ?_⟩⟩, by decide⟩
  · rw [tableHalf_eq_ofNat h1 hn, bitsOf_two_pow]
  · exact tableHalf_getLsbD h1 hn

/-! ### FIXED instances -/

/-- A legal FIXED instance rounds at its own type and shift (40_datapath.md R86). -/
theorem commandResult_fixed {p : Params} {w : Width} {g : Signedness} {k : Nat} (hm : p.shiftMode = .fixed w g k)
    (hlegal : legalMode (.fixed w g k) = true) (c : Command) :
    commandResult p c = extendResult g (rounded p.halfStrategy g
      (product (operandA w.bits c.num) (operandB (opField c.cmd) w.bits c.mul)) k) := by
  rw [commandResult, hm, decodeFor, makeInstr_op, makeInstr_sgn, makeInstr_width, makeInstr_shift,
    toNat_ofNat_of_legal hlegal, compute, scaled_of_valid _ _ ((legalMode_fixed_iff w g k).1 hlegal)]

/-- Settles O45: the operation is field `op`, and a legal shift is valid and from 1. -/
theorem fixedInstanceAlwaysRounds : Obligations.FixedInstanceAlwaysRounds := by
  unfold Obligations.FixedInstanceAlwaysRounds
  intro s w g k c rest hm hlegal hp
  refine ⟨opField c.cmd, opField_eq_rscale_iff c.cmd, ?_⟩
  rw [step_eq_afterCommand hp, commandResult_fixed hm hlegal]

/-- Settles O46: both instances decode the same instruction. -/
theorem fixedInstanceEqualsRuntime : Obligations.FixedInstanceEqualsRuntime := by
  unfold Obligations.FixedInstanceEqualsRuntime
  intro s u w g k c d rest rest' hs hu _ hp hp' hnum hmul hcmd
  have hdecode : decodeFor s.inst.shiftMode c.cmd = decodeFor u.inst.shiftMode d.cmd := by
    rw [hs, hu, hcmd, decodeFor_encode rfl]
    rfl
  refine ⟨_, step_eq_afterCommand hp, ?_⟩
  rw [commandResult_congr hdecode hnum hmul]
  exact step_eq_afterCommand hp'

/-! ### The conditions -/

/-- Without an invalid shift, overflow governs where it holds (60_exceptions.md R145). -/
theorem governingCondition_of_valid {i : Instr} (h : invalidShift i = false) (num mul : Port) :
    governingCondition i num mul = if arithmeticOverflow i num mul then .arithmeticOverflow else .none := by
  rw [governingCondition, h]
  rfl

/-- Settles O49: an invalid shift gives the sentinel; at a valid one the product is rounded, wrapped or exact. -/
theorem conditionsGovernTheResult : Obligations.ConditionsGovernTheResult := by
  unfold Obligations.ConditionsGovernTheResult
  intro i s
  cases hinvalid : invalidShift i with
  | true =>
    have hexec := outOfRangeShiftGivesTheSentinel i s ((invalidShift_iff i).1 hinvalid)
    rw [← extendResult_zero (width_bits_le_port i.width) i.sgn] at hexec
    rw [governingCondition_of_invalidShift hinvalid]
    exact ⟨0, hexec, rfl⟩
  | false =>
    have hvalid : i.shift.toNat ≤ maxShift i.width.bits i.sgn := not_lt.1 (of_decide_eq_false hinvalid)
    obtain ⟨r, hexec, hexact, hwrapped, _⟩ := operandsAreRoundedExactly i s hvalid
    refine ⟨r, hexec, ?_⟩
    rw [governingCondition_of_valid hinvalid]
    cases hover : arithmeticOverflow i s.num s.mul with
    | true => exact hwrapped hover
    | false => exact (hexact hover).1

/-- No overflow is the wrapped product having the exact product's value: a vector's value never leaves the type's range
(60_exceptions.md R142). -/
theorem arithmeticOverflow_eq_false_iff_product (i : Instr) (num mul : Port) :
    arithmeticOverflow i num mul = false ↔
      val i.sgn (product (operandA i.width.bits num) (operandB i.op i.width.bits mul)) = exactProduct i num mul := by
  refine ⟨val_product_of_no_overflow, fun hexact => ?_⟩
  rw [arithmeticOverflow_eq_false_iff, ← hexact]
  exact val_mem_range _ _

/-- Settles O51: the negation of "no overflow is an exact product"; the product of RSHIFT is its operand. -/
theorem overflowIsTheProductLeavingTheWidth : Obligations.OverflowIsTheProductLeavingTheWidth := by
  unfold Obligations.OverflowIsTheProductLeavingTheWidth
  intro i num mul
  refine ⟨?_, fun hop => arithmeticOverflow_rshift hop num mul⟩
  rw [← Bool.not_eq_false, Ne, arithmeticOverflow_eq_false_iff_product]

end Sys2Proof.Machine
end

section
/-!
PROOFS. 30_encoding.md R60, R61: the literals the assembler takes, and the commands it makes of parsed lines.
-/

namespace Sys2Proof.Machine

/-! ### Literals -/

/-- A decimal literal stands for its value's pattern where the type has that value (30_encoding.md R61). -/
theorem literalPattern_dec (g : Signedness) (n : Nat) (v : ℤ) :
    literalPattern g n (.dec v) = if minValue g n ≤ v ∧ v ≤ maxValue g n then some (bitsOf n v) else none := by
  cases g <;> rfl

/-- The port of a literal is the extension of its pattern, where it has one (30_encoding.md R61). -/
theorem literalPort_eq_ok_iff (g : Signedness) (n : Nat) (l : Literal) (p : Port) :
    literalPort g n l = .ok p ↔ ∃ v, literalPattern g n l = some v ∧ extendResult g v = p := by
  unfold literalPort
  cases literalPattern g n l with
  | none => simp
  | some v => cases g <;> simp [extendResult]

/-- A literal is taken where it has a pattern (30_encoding.md R61). -/
theorem literalPort_ok_iff_isSome (g : Signedness) (n : Nat) (l : Literal) :
    (∃ p, literalPort g n l = .ok p) ↔ (literalPattern g n l).isSome := by
  simp [literalPort_eq_ok_iff, Option.isSome_iff_exists]

/-- A decimal literal is taken in its type's range (30_encoding.md R61). -/
theorem literalPort_dec_ok_iff (g : Signedness) (n : Nat) (v : ℤ) :
    (∃ p, literalPort g n (.dec v) = .ok p) ↔ minValue g n ≤ v ∧ v ≤ maxValue g n := by
  rw [literalPort_ok_iff_isSome, literalPattern_dec]
  split_ifs with h <;> simp [h]

/-- A hexadecimal literal is taken where it has at most N bits (30_encoding.md R61). -/
theorem literalPort_hex_ok_iff (g : Signedness) (n v : Nat) :
    (∃ p, literalPort g n (.hex v) = .ok p) ↔ v < 2 ^ n := by
  rw [literalPort_ok_iff_isSome, literalPattern]
  split_ifs with h <;> simp [h]

/-- The port of a decimal literal reads as its value (30_encoding.md R61). -/
theorem val_literalPort_dec {g : Signedness} {w : Width} {v : ℤ} {p : Port}
    (h : literalPort g w.bits (.dec v) = .ok p) : val g p = v := by
  obtain ⟨hmin, hmax⟩ := (literalPort_dec_ok_iff g w.bits v).1 ⟨p, h⟩
  obtain ⟨r, hr, rfl⟩ := (literalPort_eq_ok_iff _ _ _ _).1 h
  rw [literalPattern_dec, if_pos ⟨hmin, hmax⟩] at hr
  cases hr
  rw [val_extendResult (width_bits_le_port w), val_bitsOf (width_bits_pos w) hmin hmax]

/-- The low bits of a literal's port are its pattern (30_encoding.md R61). -/
theorem literalPattern_of_literalPort {g : Signedness} {w : Width} {l : Literal} {p : Port}
    (h : literalPort g w.bits l = .ok p) : literalPattern g w.bits l = some (p.extractLsb' 0 w.bits) := by
  obtain ⟨r, hr, rfl⟩ := (literalPort_eq_ok_iff _ _ _ _).1 h
  rw [hr, extendResult_extractLsb' (width_bits_le_port w)]

/-- A written shift is a decimal in [0, 255] (30_encoding.md R61). -/
theorem shiftLiteral_dec (v : ℤ) :
    shiftLiteral (.dec v) = if 0 ≤ v ∧ v ≤ 255 then .ok (bitsOf 8 v) else .error .badShift := rfl

/-- The written shift is the one the command word gets (30_encoding.md R61). -/
theorem eq_dec_of_shiftLiteral {l : Literal} {k : ShiftField} (h : shiftLiteral l = .ok k) : l = .dec k.toNat := by
  cases l with
  | hex v => cases h
  | dec v =>
    rw [shiftLiteral_dec] at h
    split_ifs at h with hv
    cases h
    exact congrArg Literal.dec (val_bitsOf (n := 8) (g := .unsigned) (by decide) hv.1 hv.2).symm

/-- Settles O58: the ranges are those of the types, and a shift has its own. -/
theorem assemblerTakesLiteralsInRange : Obligations.AssemblerTakesLiteralsInRange := by
  unfold Obligations.AssemblerTakesLiteralsInRange
  intro w
  refine ⟨literalPort_dec_ok_iff .unsigned w.bits, literalPort_dec_ok_iff .signed w.bits,
    fun g => literalPort_hex_ok_iff g w.bits, fun g v p => val_literalPort_dec, fun v => ?_⟩
  rw [shiftLiteral_dec]
  split_ifs with h <;> simp [h]

/-! ### Lines -/

/-- A line is taken where its type is allowed and its operands are, and becomes the word of its instruction
(30_encoding.md R61). -/
theorem assembleLine_eq_ok_iff (m : ShiftMode) (l : AsmLine) (c : Command) :
    assembleLine m l = .ok c ↔ typeAllowed m l = true ∧
      ∃ a b k, lineOperands m l = .ok (a, b, k) ∧ c = ⟨encode (makeInstr l.op l.sgn l.width k), a, b⟩ := by
  unfold assembleLine
  cases typeAllowed m l with
  | false => simp
  | true =>
    cases lineOperands m l with
    | error e => simp
    | ok r => simp [eq_comm, Prod.ext_iff]

/-- What the operands of a line give: the first is on `num`, for RSCALE the second is on `mul`, RSHIFT has 0 there, and
the shift is the last one written (RUNTIME) or FIXED_SHIFT (30_encoding.md R61). -/
structure OperandsRead (m : ShiftMode) (l : AsmLine) (a b : Port) (k : ShiftField) : Prop where
  num : ∃ x, l.operands.head? = some x ∧ literalPort l.sgn l.width.bits x = .ok a
  mul : l.op = .rscale → ∃ y, l.operands[1]? = some y ∧ literalPort l.sgn l.width.bits y = .ok b
  noMul : l.op = .rshift → b = 0
  writtenShift : m = .runtime → ∃ z, l.operands.getLast? = some z ∧ shiftLiteral z = .ok k
  ownShift : ∀ w g f, m = .fixed w g f → k = BitVec.ofNat 8 f

/-- Two `Except` computations in a row succeed where both do. -/
theorem bind_eq_ok_iff {ε α β : Type} (x : Except ε α) (f : α → Except ε β) (r : β) :
    (x >>= f) = .ok r ↔ ∃ v, x = .ok v ∧ f v = .ok r := by
  cases x <;> simp [bind, Except.bind]

/-- The operands of every line the assembler takes, by the four forms a line has (30_encoding.md R61). -/
theorem operandsRead_of_lineOperands {m : ShiftMode} {l : AsmLine} {a b : Port} {k : ShiftField}
    (h : lineOperands m l = .ok (a, b, k)) : OperandsRead m l a b k := by
  unfold lineOperands at h
  split at h
  · next x y z hop hargs =>
    simp only [bind_eq_ok_iff] at h
    obtain ⟨_, ha, _, hb, _, hk, hr⟩ := h
    cases hr
    exact {
      num := ⟨x, congrArg List.head? hargs, ha⟩
      mul := fun _ => ⟨y, congrArg (·[1]?) hargs, hb⟩
      noMul := fun hshift => nomatch hop.symm.trans hshift
      writtenShift := fun _ => ⟨z, congrArg List.getLast? hargs, hk⟩
      ownShift := nofun }
  · next x z hop hargs =>
    simp only [bind_eq_ok_iff] at h
    obtain ⟨_, ha, _, hk, hr⟩ := h
    cases hr
    exact {
      num := ⟨x, congrArg List.head? hargs, ha⟩
      mul := fun hscale => nomatch hop.symm.trans hscale
      noMul := fun _ => rfl
      writtenShift := fun _ => ⟨z, congrArg List.getLast? hargs, hk⟩
      ownShift := nofun }
  · next x y hop hargs =>
    simp only [bind_eq_ok_iff] at h
    obtain ⟨_, ha, _, hb, hr⟩ := h
    cases hr
    exact {
      num := ⟨x, congrArg List.head? hargs, ha⟩
      mul := fun _ => ⟨y, congrArg (·[1]?) hargs, hb⟩
      noMul := fun hshift => nomatch hop.symm.trans hshift
      writtenShift := nofun
      ownShift := fun _ _ _ hm => by cases hm; rfl }
  · next x hop hargs =>
    simp only [bind_eq_ok_iff] at h
    obtain ⟨_, ha, hr⟩ := h
    cases hr
    exact {
      num := ⟨x, congrArg List.head? hargs, ha⟩
      mul := fun hscale => nomatch hop.symm.trans hscale
      noMul := fun _ => rfl
      writtenShift := nofun
      ownShift := fun _ _ _ hm => by cases hm; rfl }
  · cases h

/-- A FIXED instance's lines name its own type (30_encoding.md R61). -/
theorem typeAllowed_fixed_iff (w : Width) (g : Signedness) (k : Nat) (l : AsmLine) :
    typeAllowed (.fixed w g k) l = true ↔ l.width = w ∧ l.sgn = g := by
  simp [typeAllowed]

/-- The instruction of a line that a legal instance takes is one of the instance's (30_encoding.md R59, R61). -/
theorem wellFormed_of_typeAllowed {m : ShiftMode} {l : AsmLine} {k : ShiftField} (hlegal : legalMode m = true)
    (hallowed : typeAllowed m l = true) (hk : ∀ w g f, m = .fixed w g f → k = BitVec.ofNat 8 f) :
    WellFormed m (makeInstr l.op l.sgn l.width k) = true := by
  cases m with
  | runtime => rfl
  | fixed w g f =>
    obtain ⟨hw, hg⟩ := (typeAllowed_fixed_iff w g f l).1 hallowed
    rw [wellFormed_fixed_iff, makeInstr_width, makeInstr_sgn, makeInstr_shift, hk w g f rfl]
    exact ⟨hw, hg, toNat_ofNat_of_legal hlegal⟩

/-- Settles O57: the word is that of one of the instance's instructions, so the instance decodes it as any other does;
the operands are read as the line's form says. -/
theorem assembledLineBecomesItsInstruction : Obligations.AssembledLineBecomesItsInstruction := by
  unfold Obligations.AssembledLineBecomesItsInstruction
  intro m l c hlegal hline
  obtain ⟨hallowed, a, b, k, hoperands, rfl⟩ := (assembleLine_eq_ok_iff m l c).1 hline
  obtain ⟨⟨x, hx, ha⟩, hmul, hnoMul, hwritten, hown⟩ := operandsRead_of_lineOperands hoperands
  have hwf := wellFormed_of_typeAllowed hlegal hallowed hown
  refine ⟨⟨k, decodeFor_encode hwf, ?_, fun hm => ?_, ?_⟩, ⟨x, hx, ?_⟩, fun hop => ?_, hnoMul⟩
  · rw [decodeFor_encode hwf, decode_encode]
  · obtain ⟨z, hz, hk⟩ := hwritten hm
    rw [hz, eq_dec_of_shiftLiteral hk]
  · rintro w g f rfl
    simpa only [wellFormed_fixed_iff, makeInstr_width, makeInstr_sgn, makeInstr_shift] using hwf
  · rw [operandA_eq_extractLsb']
    exact literalPattern_of_literalPort ha
  · obtain ⟨y, hy, hb⟩ := hmul hop
    exact ⟨y, hy, literalPattern_of_literalPort hb⟩

end Sys2Proof.Machine
end

section
/-!
PROOFS. The clocked view of 70_reset_and_hazards.md (R161, R165, R166): commands complete LATENCY cycles later, and
reset loses those in flight.
-/

namespace Sys2Proof.Machine

/-! ### A command driven completes -/

/-- Once LATENCY + 1 commands have been driven, the window holds the last of them alone. -/
theorem Timed.cycles_drive_window_of_length {t : Timed} {cs : List Command} (hlen : t.inst.latency + 1 ≤ cs.length) :
    (t.cycles (cs.map .drive)).window = cs.reverse.take (t.inst.latency + 1) := by
  cases cs with
  | nil => simp at hlen
  | cons c cs =>
    have hfit : t.inst.latency + 1 ≤ (cs.reverse ++ [c]).length := by simpa using hlen
    have hrest := cycles_drive_window (t.cycle (.drive c)) cs (by simp)
    rw [cycle_inst, cycle_drive_window, List.take_succ_cons, List.append_cons,
      List.take_append_of_le_length hfit] at hrest
    rw [List.map_cons, cycles, hrest, List.reverse_cons]

/-- A cycle that ends with a command completing drives that command's result (00_scope.md R12). -/
theorem Timed.cycle_drive_result {t : Timed} {c d : Command}
    (h : completing t.inst (t.cycle (.drive c)).window = some d) :
    (t.cycle (.drive c)).result = commandResult t.inst d := by
  rw [cycle_drive_window] at h
  simp only [cycle, h]

/-- So do several cycles, at their end. -/
theorem Timed.cycles_drive_result {t : Timed} {cs : List Command} {d : Command} (hne : cs ≠ [])
    (h : completing t.inst (t.cycles (cs.map .drive)).window = some d) :
    (t.cycles (cs.map .drive)).result = commandResult t.inst d := by
  obtain ⟨init, last, rfl⟩ := List.eq_nil_or_concat cs |>.resolve_left hne
  rw [List.concat_eq_append, List.map_append, cycles_append] at h ⊢
  have hinst := cycles_inst t (init.map .drive)
  rw [← hinst] at h ⊢
  exact cycle_drive_result h

/-- The command at the window's end completes where the block latched it or has it held throughout
(70_reset_and_hazards.md R165). -/
theorem completing_eq_some {p : Params} {window : List Command} {c : Command} (hc : window[p.latency]? = some c)
    (hheld : p.inputLatched = true ∨ ∀ d ∈ window, d = c) : completing p window = some c := by
  have htaken : (p.inputLatched || window.all fun d => decide (d = c)) = true := by
    simpa only [Bool.or_eq_true, List.all_eq_true, decide_eq_true_iff] using hheld
  rw [completing, hc]
  exact if_pos htaken

/-- After n commands of a list, place i of the window holds the one driven i cycles before the last of them. -/
theorem Timed.cycles_take_window_getElem? {t : Timed} {cs : List Command} {n : Nat} (hn : n ≤ cs.length)
    (hlen : t.inst.latency + 1 ≤ n) (i : Nat) :
    (t.cycles ((cs.take n).map .drive)).window[i]? = if i < t.inst.latency + 1 then cs[n - 1 - i]? else none := by
  have htake : (cs.take n).length = n := List.length_take_of_le hn
  rw [cycles_drive_window_of_length (by omega), List.getElem?_take]
  refine ite_congr rfl (fun hi => ?_) fun _ => rfl
  rw [List.getElem?_reverse (by omega), htake, List.getElem?_take_of_lt (by omega)]

/-- Settles O59: LATENCY cycles after command j the window holds the commands from j on, so j's is at its end, and is
held if all of them are it. -/
theorem clockedBlockCompletesInOrder : Obligations.ClockedBlockCompletesInOrder := by
  unfold Obligations.ClockedBlockCompletesInOrder
  intro t cs j c hlegal hlen hj hheld
  have hwindow := Timed.cycles_take_window_getElem? (t := t) (n := j + t.inst.latency + 1) hlen (by omega)
  have hdriven : cs.take (j + t.inst.latency + 1) ≠ [] :=
    List.ne_nil_of_length_pos (by rw [List.length_take_of_le hlen]; omega)
  rw [← commandResult_eq_specExec c hlegal]
  refine Timed.cycles_drive_result hdriven (completing_eq_some ?_ (hheld.imp_right fun hsame d hd => ?_))
  · rw [hwindow, if_pos (Nat.lt_succ_self _), Nat.add_sub_cancel, Nat.add_sub_cancel, hj]
  · obtain ⟨i, hi⟩ := List.mem_iff_getElem?.1 hd
    rw [hwindow] at hi
    split_ifs at hi
    rw [hsame _ (by omega) (by omega)] at hi
    exact (Option.some.inj hi).symm

/-! ### Reset -/

/-- While fewer than LATENCY + 1 commands have been driven, a cycle completes none (00_scope.md R12). -/
theorem Timed.cycle_drive_of_short {t : Timed} (c : Command) (hshort : t.window.length < t.inst.latency) :
    t.cycle (.drive c) =
      { t with window := c :: t.window, result := Config.unspecifiedResult t.draws, draws := t.draws + 1 } := by
  have hfit : (c :: t.window).take (t.inst.latency + 1) = c :: t.window :=
    List.take_of_length_le (by rw [List.length_cons]; omega)
  have hnone : completing t.inst (c :: t.window) = none := by
    rw [completing, List.getElem?_eq_none (by rw [List.length_cons]; omega)]
  simp only [cycle, hfit, hnone]

/-- So in every such cycle `result` is the next free value (70_reset_and_hazards.md R161). -/
theorem Timed.cycles_drive_result_of_short {t : Timed} {d : Nat} (cs : List Command) (hdraws : t.draws = d + 1)
    (hresult : t.result = Config.unspecifiedResult d) (hshort : t.window.length + cs.length ≤ t.inst.latency) :
    (t.cycles (cs.map .drive)).result = Config.unspecifiedResult (d + cs.length) := by
  induction cs generalizing t d with
  | nil => exact hresult
  | cons c cs ih =>
    rw [List.length_cons] at hshort ⊢
    rw [List.map_cons, cycles, cycle_drive_of_short c (by omega), ← Nat.add_assoc, Nat.add_right_comm]
    exact ih (congrArg (· + 1) hdraws) (congrArg _ hdraws) (by simp only [List.length_cons]; omega)

/-- Reset keeps only the parameters and the count of draws (70_reset_and_hazards.md R161). -/
theorem Timed.cycle_reset_congr {t u : Timed} (hinst : t.inst = u.inst) (hdraws : t.draws = u.draws) :
    t.cycle .reset = u.cycle .reset := by
  rw [cycle, cycle, hinst, hdraws]

/-- Settles O60: reset empties the window, and it takes LATENCY + 1 commands to fill it. -/
theorem resetLosesCommandsInFlight : Obligations.ResetLosesCommandsInFlight := by
  unfold Obligations.ResetLosesCommandsInFlight
  refine ⟨fun t u xs hinst hdraws => ?_, fun t cs hlen => ?_⟩
  · rw [Timed.cycles, Timed.cycles, Timed.cycle_reset_congr hinst hdraws]
  · exact Timed.cycles_drive_result_of_short cs rfl rfl (by simpa [Timed.cycle] using hlen)

end Sys2Proof.Machine
end
